-- ==== Sys2Proof/Word.lean ====
section
/-! DEFINITION. Word.lean: the widths the spec gives its values (00_scope.md R6, R9, R10; 30_encoding.md R81).
Every value is unsigned (R10); nothing in this model interprets a word as signed. -/

namespace Sys2Proof

/-- A byte: a general register, a timer, a memory cell, `kk` (R6, R9, R81). -/
abbrev Byte := BitVec 8

/-- A 16-bit word: `I`, `pc`, a stack entry, an instruction word `b0 ++ b1` (R6, R9, R64). -/
abbrev Word := BitVec 16

/-- A nibble: the count `n` of `Dxyn` (R9, R81). -/
abbrev Nibble := BitVec 4

/-- The number of a general register, a 4-bit field `x` or `y`: every value names a register (R21, R81). -/
abbrev Reg := BitVec 4

/-- A 12-bit address immediate `nnn` (R81). -/
abbrev Addr := BitVec 12

/-- The 64 by 32 grid of one-bit pixels, row by row from the top: pixel `(px, py)` is bit `px` of row `py`,
so `fb[py*64 + px]` of R30 is row `py`, bit `px` (log entry 6). -/
abbrev Framebuffer := Vector (BitVec 64) 32

end Sys2Proof
end

