-- ==== Sys2Proof/Machine/Flags.lean ====
section
/-! DEFINITION. Machine/Flags.lean: the flag computations of 43_alu.md R173, each from the operands before the instruction.
The flag of `Dxyn` is the collision bit of Machine/Display.lean. -/

namespace Sys2Proof.Machine

/-- What VF holds for a flag: 1 or 0. -/
def flagByte (b : Bool) : Byte := if b then 1 else 0

/-- `8xy4`: 1 iff `a + b > 255` (R166). -/
def carry (a b : Byte) : Bool := 255 < a.toNat + b.toNat

/-- `8xy5` on `(a, b)` and `8xy7` on `(b, a)`: 1 iff the minuend is strictly greater (R167, R169). -/
def notBorrow (minuend subtrahend : Byte) : Bool := subtrahend.toNat < minuend.toNat

/-- `8xy6`: the bit shifted out, `src[0]` (R168). -/
def shiftedOutRight (src : Byte) : Bool := src.getLsbD 0

/-- `8xyE`: the bit shifted out, `src[7]` (R170). -/
def shiftedOutLeft (src : Byte) : Bool := src.getLsbD 7

end Sys2Proof.Machine
end

