-- ==== Sys2Proof/Syntax.lean ====
section
/-! DEFINITION. Syntax.lean: the 35 instructions of 30_encoding.md R84, one constructor for each row of
spec/opcode_table.json, in the table's order. A constructor's arguments are the fields its format names (R81). -/

namespace Sys2Proof

/-- The instruction set (R84). `x` and `y` are register numbers, `kk` a byte, `n` a nibble, `nnn` a 12-bit address. -/
inductive Instr where
  /-- `00E0` CLS (R212). -/
  | cls
  /-- `00EE` RET (R120). -/
  | ret
  /-- `0nnn` SYS (R121), for `nnn` other than 0x0E0 and 0x0EE (R85). -/
  | sys (nnn : Addr)
  /-- `1nnn` JP addr (R122). -/
  | jp (nnn : Addr)
  /-- `2nnn` CALL addr (R123). -/
  | call (nnn : Addr)
  /-- `3xkk` SE Vx, byte (R140). -/
  | seVxKk (x : Reg) (kk : Byte)
  /-- `4xkk` SNE Vx, byte (R141). -/
  | sneVxKk (x : Reg) (kk : Byte)
  /-- `5xy0` SE Vx, Vy (R142). -/
  | seVxVy (x y : Reg)
  /-- `6xkk` LD Vx, byte (R160). -/
  | ldVxKk (x : Reg) (kk : Byte)
  /-- `7xkk` ADD Vx, byte (R161). -/
  | addVxKk (x : Reg) (kk : Byte)
  /-- `8xy0` LD Vx, Vy (R162). -/
  | ldVxVy (x y : Reg)
  /-- `8xy1` OR Vx, Vy (R163). -/
  | orVxVy (x y : Reg)
  /-- `8xy2` AND Vx, Vy (R164). -/
  | andVxVy (x y : Reg)
  /-- `8xy3` XOR Vx, Vy (R165). -/
  | xorVxVy (x y : Reg)
  /-- `8xy4` ADD Vx, Vy (R166). -/
  | addVxVy (x y : Reg)
  /-- `8xy5` SUB Vx, Vy (R167). -/
  | sub (x y : Reg)
  /-- `8xy6` SHR Vx {, Vy} (R168). -/
  | shr (x y : Reg)
  /-- `8xy7` SUBN Vx, Vy (R169). -/
  | subn (x y : Reg)
  /-- `8xyE` SHL Vx {, Vy} (R170). -/
  | shl (x y : Reg)
  /-- `9xy0` SNE Vx, Vy (R143). -/
  | sneVxVy (x y : Reg)
  /-- `Annn` LD I, addr (R190). -/
  | ldI (nnn : Addr)
  /-- `Bnnn` JP V0, addr (R124). -/
  | jpV0 (nnn : Addr)
  /-- `Cxkk` RND Vx, byte (R171). -/
  | rnd (x : Reg) (kk : Byte)
  /-- `Dxyn` DRW Vx, Vy, nibble (R213). -/
  | drw (x y : Reg) (n : Nibble)
  /-- `Ex9E` SKP Vx (R144). -/
  | skp (x : Reg)
  /-- `ExA1` SKNP Vx (R145). -/
  | sknp (x : Reg)
  /-- `Fx07` LD Vx, DT (R232). -/
  | ldVxDt (x : Reg)
  /-- `Fx0A` LD Vx, K (R236). -/
  | ldVxK (x : Reg)
  /-- `Fx15` LD DT, Vx (R233). -/
  | ldDtVx (x : Reg)
  /-- `Fx18` LD ST, Vx (R234). -/
  | ldStVx (x : Reg)
  /-- `Fx1E` ADD I, Vx (R191). -/
  | addIVx (x : Reg)
  /-- `Fx29` LD F, Vx (R192). -/
  | ldFVx (x : Reg)
  /-- `Fx33` LD B, Vx (R193). -/
  | ldBVx (x : Reg)
  /-- `Fx55` LD [I], Vx (R194). -/
  | ldMemVx (x : Reg)
  /-- `Fx65` LD Vx, [I] (R195). -/
  | ldVxMem (x : Reg)
  deriving DecidableEq, Repr

end Sys2Proof
end

