-- ==== Sys2Proof/Decode.lean ====
section
/-! DEFINITION. Decode.lean: the decode function of `fetch_decode_unit` (30_encoding.md R81, R94), total on every word and on
every list of bytes, and after it the encoder, written from the opcode map of R84. -/

namespace Sys2Proof

/-- Field `op = w[15:12]` (R81). -/
def opField (w : Word) : BitVec 4 := w.extractLsb' 12 4
/-- Field `x = w[11:8]` (R81). -/
def xField (w : Word) : Reg := w.extractLsb' 8 4
/-- Field `y = w[7:4]` (R81). -/
def yField (w : Word) : Reg := w.extractLsb' 4 4
/-- Field `n = w[3:0]` (R81). -/
def nField (w : Word) : Nibble := w.extractLsb' 0 4
/-- Field `kk = w[7:0]` (R81). -/
def kkField (w : Word) : Byte := w.extractLsb' 0 8
/-- Field `nnn = w[11:0]` (R81). -/
def nnnField (w : Word) : Addr := w.extractLsb' 0 12

/-- The word `b0 ++ b1` of two bytes: big-endian, `b0` the high byte (R64, R80). -/
def wordOfBytes (b0 b1 : Byte) : Word := b0 ++ b1
/-- The byte `b0` of a word, stored at the lower address (R64). -/
def highByte (w : Word) : Byte := w.extractLsb' 8 8
/-- The byte `b1` of a word (R64). -/
def lowByte (w : Word) : Byte := w.extractLsb' 0 8

/-- Why bytes are no instruction: the five groups of illegal words of R91, and too few bytes to make a word. -/
inductive DecodeError where
  /-- `op = 0x5` with `n ≠ 0` (R86). -/
  | family5 (w : Word)
  /-- `op = 0x8` with `n` none of the nine sub-opcodes (R87). -/
  | family8 (w : Word)
  /-- `op = 0x9` with `n ≠ 0` (R86). -/
  | family9 (w : Word)
  /-- `op = 0xE` with `kk` neither 0x9E nor 0xA1 (R88). -/
  | familyE (w : Word)
  /-- `op = 0xF` with `kk` none of the nine sub-opcodes (R89). -/
  | familyF (w : Word)
  /-- Fewer than two bytes: every instruction is two (R80). -/
  | truncated
  deriving DecidableEq, Repr

/-- Family 0x0 (R85). -/
def decode0 (w : Word) : Instr :=
  if w = 0x00E0 then .cls else if w = 0x00EE then .ret else .sys (nnnField w)

/-- Family 0x5 (R86). -/
def decode5 (w : Word) : Except DecodeError Instr :=
  if nField w = 0 then .ok (.seVxVy (xField w) (yField w)) else .error (.family5 w)

/-- Family 0x8 (R87). -/
def decode8 (w : Word) : Except DecodeError Instr :=
  match (nField w).toNat with
  | 0x0 => .ok (.ldVxVy (xField w) (yField w))
  | 0x1 => .ok (.orVxVy (xField w) (yField w))
  | 0x2 => .ok (.andVxVy (xField w) (yField w))
  | 0x3 => .ok (.xorVxVy (xField w) (yField w))
  | 0x4 => .ok (.addVxVy (xField w) (yField w))
  | 0x5 => .ok (.sub (xField w) (yField w))
  | 0x6 => .ok (.shr (xField w) (yField w))
  | 0x7 => .ok (.subn (xField w) (yField w))
  | 0xE => .ok (.shl (xField w) (yField w))
  | _ => .error (.family8 w)

/-- Family 0x9 (R86). -/
def decode9 (w : Word) : Except DecodeError Instr :=
  if nField w = 0 then .ok (.sneVxVy (xField w) (yField w)) else .error (.family9 w)

/-- Family 0xE (R88). -/
def decodeE (w : Word) : Except DecodeError Instr :=
  match (kkField w).toNat with
  | 0x9E => .ok (.skp (xField w))
  | 0xA1 => .ok (.sknp (xField w))
  | _ => .error (.familyE w)

/-- Family 0xF (R89). -/
def decodeF (w : Word) : Except DecodeError Instr :=
  match (kkField w).toNat with
  | 0x07 => .ok (.ldVxDt (xField w))
  | 0x0A => .ok (.ldVxK (xField w))
  | 0x15 => .ok (.ldDtVx (xField w))
  | 0x18 => .ok (.ldStVx (xField w))
  | 0x1E => .ok (.addIVx (xField w))
  | 0x29 => .ok (.ldFVx (xField w))
  | 0x33 => .ok (.ldBVx (xField w))
  | 0x55 => .ok (.ldMemVx (xField w))
  | 0x65 => .ok (.ldVxMem (xField w))
  | _ => .error (.familyF w)

/-- `decode` of R94: first on `op`, then inside families 0x0, 0x5, 0x8, 0x9, 0xE and 0xF (R83). -/
def decode (w : Word) : Except DecodeError Instr :=
  match (opField w).toNat with
  | 0x0 => .ok (decode0 w)
  | 0x1 => .ok (.jp (nnnField w))
  | 0x2 => .ok (.call (nnnField w))
  | 0x3 => .ok (.seVxKk (xField w) (kkField w))
  | 0x4 => .ok (.sneVxKk (xField w) (kkField w))
  | 0x5 => decode5 w
  | 0x6 => .ok (.ldVxKk (xField w) (kkField w))
  | 0x7 => .ok (.addVxKk (xField w) (kkField w))
  | 0x8 => decode8 w
  | 0x9 => decode9 w
  | 0xA => .ok (.ldI (nnnField w))
  | 0xB => .ok (.jpV0 (nnnField w))
  | 0xC => .ok (.rnd (xField w) (kkField w))
  | 0xD => .ok (.drw (xField w) (yField w) (nField w))
  | 0xE => decodeE w
  | _ => decodeF w

/-- Decoding from bytes: the instruction of the first two (R80) and the bytes after them. -/
def decodeBytes : List Byte → Except DecodeError (Instr × List Byte)
  | b0 :: b1 :: rest =>
    match decode (wordOfBytes b0 b1) with
    | .ok i => .ok (i, rest)
    | .error e => .error e
  | _ => .error .truncated

/-- The word of an instruction, pattern by pattern from the opcode map of R84 and the formats of R81. -/
def encode : Instr → Word
  | .cls => 0x00E0
  | .ret => 0x00EE
  | .sys nnn => 0x0#4 ++ nnn
  | .jp nnn => 0x1#4 ++ nnn
  | .call nnn => 0x2#4 ++ nnn
  | .seVxKk x kk => 0x3#4 ++ x ++ kk
  | .sneVxKk x kk => 0x4#4 ++ x ++ kk
  | .seVxVy x y => 0x5#4 ++ x ++ y ++ 0x0#4
  | .ldVxKk x kk => 0x6#4 ++ x ++ kk
  | .addVxKk x kk => 0x7#4 ++ x ++ kk
  | .ldVxVy x y => 0x8#4 ++ x ++ y ++ 0x0#4
  | .orVxVy x y => 0x8#4 ++ x ++ y ++ 0x1#4
  | .andVxVy x y => 0x8#4 ++ x ++ y ++ 0x2#4
  | .xorVxVy x y => 0x8#4 ++ x ++ y ++ 0x3#4
  | .addVxVy x y => 0x8#4 ++ x ++ y ++ 0x4#4
  | .sub x y => 0x8#4 ++ x ++ y ++ 0x5#4
  | .shr x y => 0x8#4 ++ x ++ y ++ 0x6#4
  | .subn x y => 0x8#4 ++ x ++ y ++ 0x7#4
  | .shl x y => 0x8#4 ++ x ++ y ++ 0xE#4
  | .sneVxVy x y => 0x9#4 ++ x ++ y ++ 0x0#4
  | .ldI nnn => 0xA#4 ++ nnn
  | .jpV0 nnn => 0xB#4 ++ nnn
  | .rnd x kk => 0xC#4 ++ x ++ kk
  | .drw x y n => 0xD#4 ++ x ++ y ++ n
  | .skp x => 0xE#4 ++ x ++ 0x9E#8
  | .sknp x => 0xE#4 ++ x ++ 0xA1#8
  | .ldVxDt x => 0xF#4 ++ x ++ 0x07#8
  | .ldVxK x => 0xF#4 ++ x ++ 0x0A#8
  | .ldDtVx x => 0xF#4 ++ x ++ 0x15#8
  | .ldStVx x => 0xF#4 ++ x ++ 0x18#8
  | .addIVx x => 0xF#4 ++ x ++ 0x1E#8
  | .ldFVx x => 0xF#4 ++ x ++ 0x29#8
  | .ldBVx x => 0xF#4 ++ x ++ 0x33#8
  | .ldMemVx x => 0xF#4 ++ x ++ 0x55#8
  | .ldVxMem x => 0xF#4 ++ x ++ 0x65#8

/-- The opcode map of R84 read as a relation, row by row: the column "selected when", and the fields the row's pattern names as
the instruction's operands (R81). -/
def Instr.selectedBy (i : Instr) (w : Word) : Prop :=
  match i with
  | .cls => w = 0x00E0
  | .ret => w = 0x00EE
  | .sys nnn => opField w = 0x0 ∧ w ≠ 0x00E0 ∧ w ≠ 0x00EE ∧ nnn = nnnField w
  | .jp nnn => opField w = 0x1 ∧ nnn = nnnField w
  | .call nnn => opField w = 0x2 ∧ nnn = nnnField w
  | .seVxKk x kk => opField w = 0x3 ∧ x = xField w ∧ kk = kkField w
  | .sneVxKk x kk => opField w = 0x4 ∧ x = xField w ∧ kk = kkField w
  | .seVxVy x y => opField w = 0x5 ∧ nField w = 0x0 ∧ x = xField w ∧ y = yField w
  | .ldVxKk x kk => opField w = 0x6 ∧ x = xField w ∧ kk = kkField w
  | .addVxKk x kk => opField w = 0x7 ∧ x = xField w ∧ kk = kkField w
  | .ldVxVy x y => opField w = 0x8 ∧ nField w = 0x0 ∧ x = xField w ∧ y = yField w
  | .orVxVy x y => opField w = 0x8 ∧ nField w = 0x1 ∧ x = xField w ∧ y = yField w
  | .andVxVy x y => opField w = 0x8 ∧ nField w = 0x2 ∧ x = xField w ∧ y = yField w
  | .xorVxVy x y => opField w = 0x8 ∧ nField w = 0x3 ∧ x = xField w ∧ y = yField w
  | .addVxVy x y => opField w = 0x8 ∧ nField w = 0x4 ∧ x = xField w ∧ y = yField w
  | .sub x y => opField w = 0x8 ∧ nField w = 0x5 ∧ x = xField w ∧ y = yField w
  | .shr x y => opField w = 0x8 ∧ nField w = 0x6 ∧ x = xField w ∧ y = yField w
  | .subn x y => opField w = 0x8 ∧ nField w = 0x7 ∧ x = xField w ∧ y = yField w
  | .shl x y => opField w = 0x8 ∧ nField w = 0xE ∧ x = xField w ∧ y = yField w
  | .sneVxVy x y => opField w = 0x9 ∧ nField w = 0x0 ∧ x = xField w ∧ y = yField w
  | .ldI nnn => opField w = 0xA ∧ nnn = nnnField w
  | .jpV0 nnn => opField w = 0xB ∧ nnn = nnnField w
  | .rnd x kk => opField w = 0xC ∧ x = xField w ∧ kk = kkField w
  | .drw x y n => opField w = 0xD ∧ x = xField w ∧ y = yField w ∧ n = nField w
  | .skp x => opField w = 0xE ∧ kkField w = 0x9E ∧ x = xField w
  | .sknp x => opField w = 0xE ∧ kkField w = 0xA1 ∧ x = xField w
  | .ldVxDt x => opField w = 0xF ∧ kkField w = 0x07 ∧ x = xField w
  | .ldVxK x => opField w = 0xF ∧ kkField w = 0x0A ∧ x = xField w
  | .ldDtVx x => opField w = 0xF ∧ kkField w = 0x15 ∧ x = xField w
  | .ldStVx x => opField w = 0xF ∧ kkField w = 0x18 ∧ x = xField w
  | .addIVx x => opField w = 0xF ∧ kkField w = 0x1E ∧ x = xField w
  | .ldFVx x => opField w = 0xF ∧ kkField w = 0x29 ∧ x = xField w
  | .ldBVx x => opField w = 0xF ∧ kkField w = 0x33 ∧ x = xField w
  | .ldMemVx x => opField w = 0xF ∧ kkField w = 0x55 ∧ x = xField w
  | .ldVxMem x => opField w = 0xF ∧ kkField w = 0x65 ∧ x = xField w

/-- The two bytes of an instruction in the order memory holds them (R64). -/
def encodeBytes (i : Instr) : List Byte := [highByte (encode i), lowByte (encode i)]

/-- The word whose bits the opcode table numbers as `w`: the table gives every row 16 bits, and its bit 15 is bit 7 of the
byte at the lower address (R64, R81); bits above `nbits` are 0. -/
def tableWord (nbits w : Nat) : Word := BitVec.ofNat 16 (w % 2 ^ nbits)

/-- What the decoder reads from the bytes of the table's word `w`, laid out as memory holds them. -/
def decodeTableWord (nbits w : Nat) : Option Instr :=
  match decodeBytes [highByte (tableWord nbits w), lowByte (tableWord nbits w)] with
  | .ok (i, _) => some i
  | .error _ => none

end Sys2Proof
end

