-- ==== Sys2Proof/Config.lean ====
section
/-! DEFINITION. Config.lean: what the spec leaves to an implementation (00_scope.md R8) and the values it leaves free
(10_state.md R47). The three parameters are ARGUMENTS of the model: a state carries one `Params`, no step changes it, and a
statement over every state therefore holds for every value of them (log entry 3). -/

namespace Sys2Proof

/-- The parameter `SHIFT_SRC` of R8: which register `8xy6` and `8xyE` shift (R168, R170). -/
inductive ShiftSrc where
  /-- Shift `Vx` and ignore `y`: the spec's default. -/
  | vx
  /-- Shift `Vy`. -/
  | vy
  deriving DecidableEq, Repr

/-- The parameter `FONT` of R8: the 80 bytes at 0x000..0x04F after RESET, five bytes a glyph (R40). -/
abbrev Font := Vector Byte 80

/-- The parameters of R8 that some rule depends on (`TICK_HZ` and the instruction rate are depended on by none, R290). -/
structure Params where
  /-- `FONT`. -/
  font : Font
  /-- `SHIFT_SRC`. -/
  shiftSrc : ShiftSrc
  /-- `HAS_KEY_STATE`: whether the `key_down` port is connected. -/
  hasKeyState : Bool
  deriving DecidableEq, Repr

/-- Glyphs 0 to 7 of R41. -/
def Config.glyphs0to7 : List Byte :=
  [0xF0, 0x90, 0x90, 0x90, 0xF0] ++ [0x20, 0x60, 0x20, 0x20, 0x70] ++
  [0xF0, 0x10, 0xF0, 0x80, 0xF0] ++ [0xF0, 0x10, 0xF0, 0x10, 0xF0] ++
  [0x90, 0x90, 0xF0, 0x10, 0x10] ++ [0xF0, 0x80, 0xF0, 0x10, 0xF0] ++
  [0xF0, 0x80, 0xF0, 0x90, 0xF0] ++ [0xF0, 0x10, 0x20, 0x40, 0x40]

/-- Glyphs 8 to F of R41. -/
def Config.glyphs8toF : List Byte :=
  [0xF0, 0x90, 0xF0, 0x90, 0xF0] ++ [0xF0, 0x90, 0xF0, 0x10, 0xF0] ++
  [0xF0, 0x90, 0xF0, 0x90, 0x90] ++ [0xE0, 0x90, 0xE0, 0x90, 0xE0] ++
  [0xF0, 0x80, 0x80, 0x80, 0xF0] ++ [0xE0, 0x90, 0x90, 0x90, 0xE0] ++
  [0xF0, 0x80, 0xF0, 0x80, 0xF0] ++ [0xF0, 0x80, 0xF0, 0x80, 0x80]

/-- The default `FONT` of R41, which the spec itself marks as general knowledge (log entry 3). -/
def Config.standardFont : Font :=
  { toArray := ⟨Config.glyphs0to7 ++ Config.glyphs8toF⟩, size_toArray := rfl }

/-- The defaults of R8. -/
def Config.defaultParams : Params :=
  { font := Config.standardFont, shiftSrc := .vx, hasKeyState := true }

/-- FREE VALUE: the `rand_byte` the host presents with the n-th STEP of a run that lists no value of its own.
R47 takes it under no law, so it has no body (log entry 2). -/
opaque Config.freeRandByte : Nat → Byte

/-- FREE VALUE: the `key_down` the host presents with the n-th STEP of a run that lists no value of its own
(R47; log entry 2). -/
opaque Config.freeKeyDown : Nat → Word

end Sys2Proof
end

