-- ==== Sys2Proof/Machine/State.lean ====
section
/-! DEFINITION. Machine/State.lean: the state tuple of 10_state.md R20, the parameters of 00_scope.md R8 it is read with, and
the host's side of the ports of R45 (the model's own fields; log entries 1, 2, 3, 5). Plain data throughout. -/

namespace Sys2Proof.Machine

/-- The run state `status` of R32. -/
inductive Status where
  /-- Instructions execute (code 0). -/
  | running
  /-- Suspended in `Fx0A`, waiting for a key (code 1). -/
  | waitKey
  /-- The run ended normally: `pc` left the program region (code 2). -/
  | ended
  /-- A fatal condition halted the machine (code 3). -/
  | faulted
  deriving DecidableEq, Repr

/-- The faults of 60_exceptions.md R251, the values of `fault_code`. They are STATE, not the model's stops: raising one is a
next state (R252; log entry 4). -/
inductive FaultCode where
  /-- No fault recorded (code 0). -/
  | none
  /-- `UNKNOWN_OPCODE` (code 1): an illegal word was decoded. -/
  | unknownOpcode
  /-- `STACK_OVERFLOW` (code 2): `2nnn` with 16 entries saved. -/
  | stackOverflow
  /-- `STACK_UNDERFLOW` (code 3): `00EE` with none saved. -/
  | stackUnderflow
  /-- `INPUT_ABORTED` (code 4): ABORT during the key wait. -/
  | inputAborted
  /-- `MEMORY_RANGE` (code 5): an access at 0x1000 or above. -/
  | memoryRange
  deriving DecidableEq, Repr

/-- The atomic events of 40_cycle.md R100, each with the values the host presents with it (R45). -/
inductive Event where
  /-- `RESET(P)` with the program image `P` (R280). -/
  | reset (image : List Byte)
  /-- `STEP(r, kd)` with `rand_byte = r` and `key_down = kd` (R101). -/
  | step (r : Byte) (kd : Word)
  /-- `TICK` (R231). -/
  | tick
  /-- `KEY(c)` with `key_code = c` (R237). -/
  | key (c : Byte)
  /-- `ABORT` (R238). -/
  | abort
  deriving DecidableEq, Repr

/-- Memory as a list of the bytes that differ from what RESET leaves there, addresses strictly rising (log entry 8). -/
abbrev Memory := List Host.Cell

/-- The state. The first group is the tuple of R20, in its order; the second is the model's own. -/
structure State where
  /-- `V[0..15]`, the general registers; `V[15]` is VF (R21, R22). -/
  v : Vector Byte 16
  /-- `I`, the index register (R24). -/
  i : Word
  /-- `pc` (R25). -/
  pc : Word
  /-- `sp`, the number of saved entries, 0..16 (R26; log entry 7). -/
  sp : Fin 17
  /-- `stack[0..15]`, dead entries included (R27). -/
  stack : Vector Word 16
  /-- `dt`, the delay timer (R28). -/
  dt : Byte
  /-- `st`, the sound timer (R29). -/
  st : Byte
  /-- `fb`, the framebuffer (R30). -/
  fb : Framebuffer
  /-- `mem[0..4095]` (R31). -/
  mem : Memory
  /-- `status` (R32). -/
  status : Status
  /-- `wait_x`, the register a key will land in (R33). -/
  waitX : Reg
  /-- `fault_code` (R34). -/
  faultCode : FaultCode
  /-- `fault_pc` (R34). -/
  faultPc : Word
  /-- `fault_opcode` (R34). -/
  faultOpcode : Word
  /-- `fault_addr` (R34). -/
  faultAddr : Word
  /-- The parameters of R8: arguments of the model, which no step changes (log entry 3). -/
  params : Params
  /-- `rand_byte`, the value at the port at the last STEP (R45, R47; log entry 2). -/
  randByte : Byte
  /-- `key_down`, the value at the port at the last STEP (R45, R47; log entry 2). -/
  keyDown : Word
  /-- How many free draws have been taken (log entry 2). -/
  draws : Nat
  /-- The host's events still to come, the next one first; when it lists none the host sends STEPs (log entry 1). -/
  inputs : List Event
  /-- The `fb_update` events sent so far, oldest first, each with its snapshot `fb_pixels` (R45, R48; log entry 5). -/
  fbUpdates : List Framebuffer
  deriving DecidableEq, Repr

/-- How a step of the MODEL stops with a fault. Every fault of the SPEC is a next state (`FaultCode`); this type holds only
what the spec gives no meaning. -/
inductive Fault where
  /-- A memory primitive applied at an address of 0x1000 or above, where R12 and R63 define none. Raised by ABORT alone, when it
  must read the waiting instruction's word at a `pc` where no instruction can be waiting: a state no RESET leads to (R37).
  SAFE: the machine stops where the spec has no state (log entry 10). -/
  | absentAddress (a : Nat)
  deriving DecidableEq, Repr

/-- What the model gives no meaning. -/
inductive Refusal where
  /-- An instruction with no meaning yet. Raised by no arm of `exec`: every instruction has its meaning. SAFE. -/
  | notModelled (mnemonic : String)
  /-- `RESET(P)` with an image of more than 3584 bytes: "such a RESET has no meaning in the model and is refused" (R281). Raised by
  the RESET event. SAFE (log entry 12). -/
  | imageTooLong (length : Nat)
  deriving DecidableEq, Repr

/-- The machine right after RESET with the empty image and the default parameters (R38, R39). Memory lists nothing: every
byte is what RESET leaves. The host's side starts with nothing listed and nothing sent (log entries 9, 13). -/
def State.reset : State where
  v := Vector.replicate 16 0
  i := 0
  pc := 0x200
  sp := 0
  stack := Vector.replicate 16 0
  dt := 0
  st := 0
  fb := Vector.replicate 32 0
  mem := []
  status := .running
  waitX := 0
  faultCode := .none
  faultPc := 0
  faultOpcode := 0
  faultAddr := 0
  params := Config.defaultParams
  randByte := 0
  keyDown := 0
  draws := 0
  inputs := []
  fbUpdates := []

end Sys2Proof.Machine
end

