-- ==== Sys2Proof/Machine/Ops.lean ====
section
/-! DEFINITION. Machine/Ops.lean: the named operations over registers, the stack, the timers, memory and the run state, and
the raising of a fault, each once. There is no return from a fault: only RESET leaves `FAULTED` (60_exceptions.md R254). -/

namespace Sys2Proof.Machine

/-! ## General registers, index register, program counter -/

/-- `V[r]` (R21). -/
def State.getV (s : State) (r : Reg) : Byte := s.v[r.toNat]'r.isLt

/-- `V[r] <- b` (R21). -/
def State.setV (r : Reg) (b : Byte) (s : State) : State := { s with v := s.v.set r.toNat b r.isLt }

/-- `V[15]`, the flag (R22). -/
abbrev vF : Reg := 0xF#4

/-- `I <- w` (R24). -/
def State.setI (w : Word) (s : State) : State := { s with i := w }

/-- `pc <- target` (R106). -/
def State.setPc (target : Word) (s : State) : State := { s with pc := target }

/-- The driver's `pc <- pc + 2` of R106, for an instruction that writes no `pc`. -/
def State.advance (s : State) : State := s.setPc (s.pc + 2)

/-- A skip: `pc <- pc + 4` when the condition holds, else `pc <- pc + 2`; the skipped word is not read (R140 to R146). -/
def State.skipIf (taken : Bool) (s : State) : State := s.setPc (if taken then s.pc + 4 else s.pc + 2)

/-! ## Call stack -/

/-- `stack[sp] <- ret; sp <- sp + 1`, when fewer than 16 entries are saved (R26, R27, R123). -/
def State.push (ret : Word) (s : State) (notFull : s.sp.val < 16) : State :=
  { s with stack := s.stack.set s.sp.val ret notFull, sp := ⟨s.sp.val + 1, Nat.succ_lt_succ notFull⟩ }

/-- `stack[sp - 1]`, when an entry is saved (R120). -/
def State.top (s : State) (notEmpty : 0 < s.sp.val) : Word :=
  s.stack[s.sp.val - 1]'(by omega)

/-- `sp <- sp - 1`; the entry is not cleared (R120). -/
def State.pop (s : State) : State := { s with sp := ⟨s.sp.val - 1, by omega⟩ }

/-! ## Timers -/

/-- `dt <- b` (R28). -/
def State.setDt (b : Byte) (s : State) : State := { s with dt := b }

/-- `st <- b` (R29). -/
def State.setSt (b : Byte) (s : State) : State := { s with st := b }

/-- One tick of a counter: it "never goes negative" (R231). -/
def tickDown (b : Byte) : Byte := if b = 0 then 0 else b - 1

/-! ## Memory

Addresses are exact integers (R70). Every rule checks its whole range before it calls a primitive (R63, R69). -/

/-- What RESET leaves at an address before the image is placed, and so what an address not listed reads as: the font at
0x000..0x04F, 0 elsewhere (R39, R61). -/
def Memory.background (font : Font) (a : Nat) : Byte := if h : a < 80 then font[a] else 0

/-- The byte at an address. -/
def Memory.read (font : Font) : Memory → Nat → Byte
  | [], a => Memory.background font a
  | (b, v) :: rest, a => if b = a then v else Memory.read font rest a

/-- The memory without an entry for `a`. -/
def Memory.erase (a : Nat) (m : Memory) : Memory := m.filter (fun c => c.1 != a)

/-- The memory with an entry placed before the first greater address. -/
def Memory.insert (a : Nat) (v : Byte) : Memory → Memory
  | [] => [(a, v)]
  | (b, w) :: rest => if a < b then (a, v) :: (b, w) :: rest else (b, w) :: Memory.insert a v rest

/-- One byte written. A value equal to the background is not listed. -/
def Memory.write (font : Font) (m : Memory) (a : Nat) (v : Byte) : Memory :=
  if v = Memory.background font a then Memory.erase a m else Memory.insert a v (Memory.erase a m)

/-- Bytes written at consecutive addresses, the lowest first (R66). -/
def Memory.writeAll (font : Font) (m : Memory) (a : Nat) : List Byte → Memory
  | [] => m
  | b :: bs => Memory.writeAll font (Memory.write font m a b) (a + 1) bs

/-- The canonical form: addresses strictly rising and below 0x1000, no entry equal to the background. -/
abbrev Memory.wf (font : Font) (m : Memory) : Prop :=
  m.Pairwise (fun c d => c.1 < d.1) ∧ ∀ c ∈ m, c.1 < 0x1000 ∧ c.2 ≠ Memory.background font c.1

/-- `MemRead(a, 1)` (R12, R63). -/
def State.readByte (s : State) (a : Nat) : Byte := Memory.read s.params.font s.mem a

/-- `MemWrite(a + k, 1, bs[k])` for every `k`, in ascending order (R12, R63, R66). -/
def State.storeBytes (a : Nat) (bs : List Byte) (s : State) : State :=
  { s with mem := Memory.writeAll s.params.font s.mem a bs }

/-- Some address of `first .. first + count - 1` is 0x1000 or above; an access of no byte checks none (R69). -/
def rangeFails (first count : Nat) : Bool := 0 < count && 0x1000 < first + count

/-- The lowest such address, `max(first, 0x1000)` (R69). -/
def lowestInvalid (first : Nat) : Word := BitVec.ofNat 16 (max first 0x1000)

/-! ## Framebuffer -/

/-- A pixel of a grid (R30). -/
def framePixel (fb : Framebuffer) (px : Fin 64) (py : Fin 32) : Bool := (fb[py.val]).getLsbD px.val

/-- Pixel `(px, py)` of the framebuffer, `fb[py*64 + px]` of R30. -/
def State.pixel (s : State) (px : Fin 64) (py : Fin 32) : Bool := framePixel s.fb px py

/-- The pixels written and `emit fb_update(fb)` with the snapshot after the instruction's effect (R48). -/
def State.showFrame (fb : Framebuffer) (s : State) : State := { s with fb := fb, fbUpdates := s.fbUpdates ++ [fb] }

/-! ## Run state -/

/-- Fault entry (R252): `status <- FAULTED`, the record written, nothing else changed. `fault_pc` is the `pc` of the
instruction or event that faulted. -/
def State.raise (code : FaultCode) (opcode addr : Word) (s : State) : State :=
  { s with status := .faulted, faultCode := code, faultPc := s.pc, faultOpcode := opcode, faultAddr := addr }

/-- Entry into the key wait (R236): `pc` is held. -/
def State.enterWait (x : Reg) (s : State) : State := { s with status := .waitKey, waitX := x }

/-- A change of `status` alone: `RUNNING` at the end of a key wait (R237), `ENDED` at the end of a run (R102, R255). -/
def State.setStatus (st : Status) (s : State) : State := { s with status := st }

/-! ## Host side -/

/-- The values the host presents with a STEP: `rand_byte` and `key_down` (R45). -/
def State.present (r : Byte) (kd : Word) (s : State) : State := { s with randByte := r, keyDown := kd }

/-- A STEP for which the host lists no values: both are free draws (R47; log entry 2). -/
def State.drawFree (s : State) : State :=
  { s with randByte := Config.freeRandByte s.draws, keyDown := Config.freeKeyDown s.draws, draws := s.draws + 1 }

/-- The event at the head of the host's list taken off it. -/
def State.setInputs (es : List Event) (s : State) : State := { s with inputs := es }

/-! ## Output ports (R45) -/

/-- The 2-bit code of `status` (R32). -/
def Status.code : Status → BitVec 2
  | .running => 0
  | .waitKey => 1
  | .ended => 2
  | .faulted => 3

/-- The 3-bit `fault_code` (R251). -/
def FaultCode.code : FaultCode → BitVec 3
  | .none => 0
  | .unknownOpcode => 1
  | .stackOverflow => 2
  | .stackUnderflow => 3
  | .inputAborted => 4
  | .memoryRange => 5

/-- `sound_on` (R49). -/
def State.soundOn (s : State) : Bool := s.st != 0

end Sys2Proof.Machine
end

