-- ==== Sys2Proof/Machine/Operands.lean ====
section
/-! DEFINITION. Machine/Operands.lean: the operand forms of 30_encoding.md R82 and 44_index_memory.md R196 beyond a register
or an immediate: the shifted register, the key-down test, the byte runs at `I`. -/

namespace Sys2Proof.Machine

/-- `zext_16(nnn)` (R82). -/
def addrWord (nnn : Addr) : Word := nnn.setWidth 16

/-- `zext_16(b)` of a byte (R191, R192). -/
def byteWord (b : Byte) : Word := b.setWidth 16

/-- The operand `src` of `8xy6` and `8xyE`, by `SHIFT_SRC` (R168, R170). -/
def State.shiftOperand (s : State) (x y : Reg) : Byte :=
  match s.params.shiftSrc with
  | .vx => s.getV x
  | .vy => s.getV y

/-- `key_down` as a STEP samples it: 0 when `HAS_KEY_STATE` is false (R47). -/
def State.keyDownSample (s : State) : Word := if s.params.hasKeyState then s.keyDown else 0

/-- `(V[x] < 16) and kd[V[x]] = 1` (R144, R145). -/
def State.isKeyDown (s : State) (x : Reg) : Bool :=
  (s.getV x).toNat < 16 && s.keyDownSample.getLsbD (s.getV x).toNat

/-- The three decimal digits of a byte, hundreds first (R193). -/
def bcdDigits (b : Byte) : List Byte :=
  [BitVec.ofNat 8 (b.toNat / 100), BitVec.ofNat 8 (b.toNat / 10 % 10), BitVec.ofNat 8 (b.toNat % 10)]

/-- `V0..Vx` in ascending order, the bytes `Fx55` stores (R194). -/
def State.regsUpTo (s : State) (x : Reg) : List Byte := s.v.toList.take (x.toNat + 1)

/-- `V[k] <- MemRead(base + k, 1)` for `k` in `0 .. count - 1` (R195). -/
def State.loadRegs (s : State) (base : Nat) : Nat → Vector Byte 16 → Vector Byte 16
  | 0, v => v
  | k + 1, v => (s.loadRegs base k v).setIfInBounds k (s.readByte (base + k))

/-- All of `V` written at once, for a run of registers loaded. -/
def State.setAllV (v : Vector Byte 16) (s : State) : State := { s with v := v }

end Sys2Proof.Machine
end

