-- ==== Sys2Proof/Machine/Alu.lean ====
section
/-! DEFINITION. Machine/Alu.lean: register arithmetic and logic (43_alu.md R160 to R171). Every operand is read before any
write, and a flag is written after the result, so VF as destination ends holding the flag (R22, R107). -/

namespace Sys2Proof.Machine

/-- The result to `V[x]`, no flag, then the advance of R106. -/
def writeResult (x : Reg) (result : Byte) (s : State) : Host.Outcome State Fault Refusal :=
  .next (s.setV x result).advance

/-- The result to `V[x]`, the flag to VF after it, then the advance of R106. -/
def writeResultFlag (x : Reg) (result : Byte) (flag : Bool) (s : State) : Host.Outcome State Fault Refusal :=
  .next ((s.setV x result).setV vF (flagByte flag)).advance

/-- `6xkk` LD Vx, byte (R160). -/
def execLdVxKk (x : Reg) (kk : Byte) (s : State) : Host.Outcome State Fault Refusal := writeResult x kk s

/-- `7xkk` ADD Vx, byte (R161): no flag. -/
def execAddVxKk (x : Reg) (kk : Byte) (s : State) : Host.Outcome State Fault Refusal :=
  writeResult x (s.getV x + kk) s

/-- `8xy0` LD Vx, Vy (R162). -/
def execLdVxVy (x y : Reg) (s : State) : Host.Outcome State Fault Refusal := writeResult x (s.getV y) s

/-- `8xy1` OR (R163): VF is not reset. -/
def execOr (x y : Reg) (s : State) : Host.Outcome State Fault Refusal := writeResult x (s.getV x ||| s.getV y) s

/-- `8xy2` AND (R164). -/
def execAnd (x y : Reg) (s : State) : Host.Outcome State Fault Refusal := writeResult x (s.getV x &&& s.getV y) s

/-- `8xy3` XOR (R165). -/
def execXor (x y : Reg) (s : State) : Host.Outcome State Fault Refusal := writeResult x (s.getV x ^^^ s.getV y) s

/-- `8xy4` ADD Vx, Vy (R166). -/
def execAddVxVy (x y : Reg) (s : State) : Host.Outcome State Fault Refusal :=
  writeResultFlag x (s.getV x + s.getV y) (carry (s.getV x) (s.getV y)) s

/-- `8xy5` SUB Vx, Vy (R167). -/
def execSub (x y : Reg) (s : State) : Host.Outcome State Fault Refusal :=
  writeResultFlag x (s.getV x - s.getV y) (notBorrow (s.getV x) (s.getV y)) s

/-- `8xy6` SHR (R168). -/
def execShr (x y : Reg) (s : State) : Host.Outcome State Fault Refusal :=
  writeResultFlag x (s.shiftOperand x y >>> 1) (shiftedOutRight (s.shiftOperand x y)) s

/-- `8xy7` SUBN Vx, Vy (R169). -/
def execSubn (x y : Reg) (s : State) : Host.Outcome State Fault Refusal :=
  writeResultFlag x (s.getV y - s.getV x) (notBorrow (s.getV y) (s.getV x)) s

/-- `8xyE` SHL (R170). -/
def execShl (x y : Reg) (s : State) : Host.Outcome State Fault Refusal :=
  writeResultFlag x (s.shiftOperand x y <<< 1) (shiftedOutLeft (s.shiftOperand x y)) s

/-- `Cxkk` RND Vx, byte (R171): `r` is the value at the port `rand_byte`. -/
def execRnd (x : Reg) (kk : Byte) (s : State) : Host.Outcome State Fault Refusal := writeResult x (s.randByte &&& kk) s

end Sys2Proof.Machine
end

