-- ==== Sys2Proof/Machine/Control.lean ====
section
/-! DEFINITION. Machine/Control.lean: control transfer (41_control_flow.md R120 to R124). Each meaning answers the state after
the instruction, the program counter included (40_cycle.md R106). The `fault_opcode` a meaning records is the instruction's
own word (log entry 11). -/

namespace Sys2Proof.Machine

/-- `00EE` RET (R120): the popped value is used as it is; an empty stack raises `STACK_UNDERFLOW`. -/
def execRet (s : State) : Host.Outcome State Fault Refusal :=
  if h : 0 < s.sp.val then .next (s.pop.setPc (s.top h))
  else .next (s.raise .stackUnderflow (encode .ret) 0)

/-- `0nnn` SYS (R121): no effect. -/
def execSys (_nnn : Addr) (s : State) : Host.Outcome State Fault Refusal := .next s.advance

/-- `1nnn` JP (R122). -/
def execJp (nnn : Addr) (s : State) : Host.Outcome State Fault Refusal := .next (s.setPc (addrWord nnn))

/-- `2nnn` CALL (R123): pushes `pc + 2`; a full stack raises `STACK_OVERFLOW`. -/
def execCall (nnn : Addr) (s : State) : Host.Outcome State Fault Refusal :=
  if h : s.sp.val < 16 then .next ((s.push (s.pc + 2) h).setPc (addrWord nnn))
  else .next (s.raise .stackOverflow (encode (.call nnn)) 0)

/-- `Bnnn` JP V0 (R124): a 16-bit sum, not masked. -/
def execJpV0 (nnn : Addr) (s : State) : Host.Outcome State Fault Refusal :=
  .next (s.setPc (byteWord (s.getV 0) + addrWord nnn))

end Sys2Proof.Machine
end

