-- ==== Sys2Proof/Machine/Display.lean ====
section
/-! DEFINITION. Machine/Display.lean: `sprite_compositor_collision_detector` (45_display.md R210 to R213). -/

namespace Sys2Proof.Machine

/-- `togglePixel(px, py)` of R210: coordinates wrap on both axes; the answer's second part is whether the pixel was set. -/
def togglePixel (fb : Framebuffer) (px py : Nat) : Framebuffer × Bool :=
  let row := fb[py % 32]'(Nat.mod_lt _ (by omega))
  (fb.set (py % 32) (row ^^^ BitVec.twoPow 64 (px % 64)) (Nat.mod_lt _ (by omega)), row.getLsbD (px % 64))

/-- Columns `0 .. count - 1` of one sprite row: column `c` is bit `7 - c` of the row's byte (R211, R213). -/
def drawColumns (row : Byte) (px py : Nat) : Nat → Framebuffer × Bool → Framebuffer × Bool
  | 0, d => d
  | c + 1, d =>
    let d' := drawColumns row px py c d
    if row.getLsbD (7 - c) then
      let t := togglePixel d'.1 (px + c) py
      (t.1, d'.2 || t.2)
    else d'

/-- Rows `0 .. count - 1` of a sprite whose bytes `sprite` gives, the top row first, collisions accumulated (R213). -/
def drawRows (sprite : Nat → Byte) (px py : Nat) : Nat → Framebuffer × Bool → Framebuffer × Bool
  | 0, d => d
  | r + 1, d => drawColumns (sprite r) px (py + r) 8 (drawRows sprite px py r d)

/-- What `Dxyn` makes of the framebuffer, and its collision bit: the sprite at `I`, the place `(Vx, Vy)` (R213). -/
def State.drawSprite (s : State) (x y : Reg) (n : Nibble) : Framebuffer × Bool :=
  drawRows (fun r => s.readByte (s.i.toNat + r)) (s.getV x).toNat (s.getV y).toNat n.toNat (s.fb, false)

/-- The clear screen (R212). -/
def clearFrame : Framebuffer := Vector.replicate 32 0

/-- `00E0` CLS (R212). -/
def execCls (s : State) : Host.Outcome State Fault Refusal := .next (s.showFrame clearFrame).advance

/-- `Dxyn` DRW (R213): VF is written last; `n = 0` reads no byte, draws nothing and still sends `fb_update`. -/
def execDrw (x y : Reg) (n : Nibble) (s : State) : Host.Outcome State Fault Refusal :=
  if rangeFails s.i.toNat n.toNat then
    .next (s.raise .memoryRange (encode (.drw x y n)) (lowestInvalid s.i.toNat))
  else
    .next ((s.showFrame (s.drawSprite x y n).1).setV vF (flagByte (s.drawSprite x y n).2)).advance

end Sys2Proof.Machine
end

