-- ==== Sys2Proof/Machine/IndexMemory.lean ====
section
/-! DEFINITION. Machine/IndexMemory.lean: the index register and memory transfers (44_index_memory.md R190 to R195). The range
check comes before every effect (20_memory.md R69); no transfer changes `I` (R196). -/

namespace Sys2Proof.Machine

/-- `Annn` LD I, addr (R190). -/
def execLdI (nnn : Addr) (s : State) : Host.Outcome State Fault Refusal := .next (s.setI (addrWord nnn)).advance

/-- `Fx1E` ADD I, Vx (R191): modulo 65536, no flag, not masked to 12 bits. -/
def execAddIVx (x : Reg) (s : State) : Host.Outcome State Fault Refusal :=
  .next (s.setI (s.i + byteWord (s.getV x))).advance

/-- `Fx29` LD F, Vx (R192): `V[x] * 5`, not masked. -/
def execLdFVx (x : Reg) (s : State) : Host.Outcome State Fault Refusal :=
  .next (s.setI (byteWord (s.getV x) * 5)).advance

/-- `Fx33` LD B, Vx (R193). -/
def execLdBVx (x : Reg) (s : State) : Host.Outcome State Fault Refusal :=
  if rangeFails s.i.toNat 3 then .next (s.raise .memoryRange (encode (.ldBVx x)) (lowestInvalid s.i.toNat))
  else .next (s.storeBytes s.i.toNat (bcdDigits (s.getV x))).advance

/-- `Fx55` LD [I], Vx (R194). -/
def execLdMemVx (x : Reg) (s : State) : Host.Outcome State Fault Refusal :=
  if rangeFails s.i.toNat (x.toNat + 1) then
    .next (s.raise .memoryRange (encode (.ldMemVx x)) (lowestInvalid s.i.toNat))
  else .next (s.storeBytes s.i.toNat (s.regsUpTo x)).advance

/-- `Fx65` LD Vx, [I] (R195). -/
def execLdVxMem (x : Reg) (s : State) : Host.Outcome State Fault Refusal :=
  if rangeFails s.i.toNat (x.toNat + 1) then
    .next (s.raise .memoryRange (encode (.ldVxMem x)) (lowestInvalid s.i.toNat))
  else .next (s.setAllV (s.loadRegs s.i.toNat (x.toNat + 1) s.v)).advance

end Sys2Proof.Machine
end

