-- ==== Sys2Proof/Machine/TimersInput.lean ====
section
/-! DEFINITION. Machine/TimersInput.lean: the timer instructions and the key wait (46_timers_input.md R232 to R236). -/

namespace Sys2Proof.Machine

/-- `Fx07` LD Vx, DT (R232). -/
def execLdVxDt (x : Reg) (s : State) : Host.Outcome State Fault Refusal := .next (s.setV x s.dt).advance

/-- `Fx15` LD DT, Vx (R233). -/
def execLdDtVx (x : Reg) (s : State) : Host.Outcome State Fault Refusal := .next (s.setDt (s.getV x)).advance

/-- `Fx18` LD ST, Vx (R234). -/
def execLdStVx (x : Reg) (s : State) : Host.Outcome State Fault Refusal := .next (s.setSt (s.getV x)).advance

/-- `Fx0A` LD Vx, K (R236): the entry into the wait; `pc` holds the address of the `Fx0A`. -/
def execLdVxK (x : Reg) (s : State) : Host.Outcome State Fault Refusal := .next (s.enterWait x)

end Sys2Proof.Machine
end

