-- ==== Sys2Proof/Machine/Cycle.lean ====
section
/-! DEFINITION. Machine/Cycle.lean: the atomic events of 40_cycle.md R100 and the fetch, and which event the host's list
presents next. An event the current `status` does not accept has no effect (10_state.md R46). -/

namespace Sys2Proof.Machine

/-- `pc` is in the program region [0x200, 0x1000) (R102). -/
def inProgramRegion (pc : Word) : Bool := 0x200 ≤ pc.toNat && pc.toNat < 0x1000

/-- The word at `pc`: `mem[pc] ++ mem[pc + 1]` (R64, R103). -/
def State.fetchWord (s : State) : Word := wordOfBytes (s.readByte s.pc.toNat) (s.readByte (s.pc.toNat + 1))

/-- STEP (R101 to R106, R113), its checks in the order of R109; the host's values are already at the ports. -/
def takeStep (s : State) : Host.Outcome State Fault Refusal :=
  if s.status = .running then
    if inProgramRegion s.pc then
      if s.pc = 0xFFF then .next (s.raise .memoryRange 0 0x1000)
      else
        match decode s.fetchWord with
        | .ok i => exec i s
        | .error _ => .next (s.raise .unknownOpcode s.fetchWord 0)
    else .next (s.setStatus .ended)
  else .next s

/-- TICK (R231): each counter once, in `RUNNING` and `WAIT_KEY`. -/
def takeTick (s : State) : Host.Outcome State Fault Refusal :=
  match s.status with
  | .running | .waitKey => .next ((s.setDt (tickDown s.dt)).setSt (tickDown s.st))
  | .ended | .faulted => .next s

/-- KEY(c) (R237): completes the waiting `Fx0A`. -/
def takeKey (c : Byte) (s : State) : Host.Outcome State Fault Refusal :=
  if s.status = .waitKey then .next ((s.setV s.waitX c).advance.setStatus .running) else .next s

/-- ABORT (R238): `INPUT_ABORTED` with the word of the waiting `Fx0A`. Where that word would lie past the end of memory no
primitive reads it (R12), and the model stops (log entry 10). -/
def takeAbort (s : State) : Host.Outcome State Fault Refusal :=
  if s.status = .waitKey then
    if 0x1000 ≤ s.pc.toNat + 1 then .fault (.absentAddress (max s.pc.toNat 0x1000))
    else .next (s.raise .inputAborted s.fetchWord 0)
  else .next s

/-- Every state element at its value of R38, memory as R39 gives it for the image. What is not of the tuple of R20 stays:
the parameters, the host's side, the `fb_update` events already sent. -/
def State.resetTo (image : List Byte) (s : State) : State where
  v := Vector.replicate 16 0
  i := 0
  pc := 0x200
  sp := 0
  stack := Vector.replicate 16 0
  dt := 0
  st := 0
  fb := Vector.replicate 32 0
  mem := Memory.writeAll s.params.font [] 0x200 image
  status := .running
  waitX := 0
  faultCode := .none
  faultPc := 0
  faultOpcode := 0
  faultAddr := 0
  params := s.params
  randByte := s.randByte
  keyDown := s.keyDown
  draws := s.draws
  inputs := s.inputs
  fbUpdates := s.fbUpdates

/-- RESET(P) (R280), in every `status`; an image of more than 3584 bytes is refused (R281). -/
def takeReset (image : List Byte) (s : State) : Host.Outcome State Fault Refusal :=
  if 3584 < image.length then .refused (.imageTooLong image.length) else .next (s.resetTo image)

/-- One event, already taken off the host's list. -/
def takeEvent (e : Event) (s : State) : Host.Outcome State Fault Refusal :=
  match e with
  | .reset image => takeReset image s
  | .step r kd => takeStep (s.present r kd)
  | .tick => takeTick s
  | .key c => takeKey c s
  | .abort => takeAbort s

/-- The next event: the first of the host's list, or, where it lists none, a STEP with free draws (log entries 1, 2). -/
def nextEvent (s : State) : Host.Outcome State Fault Refusal :=
  match s.inputs with
  | [] => takeStep s.drawFree
  | e :: rest => takeEvent e (s.setInputs rest)

/-- The host's list with a STEP next: as it is where it lists nothing or a STEP, else a STEP with the values at the ports
before it. -/
def stepFirst (r : Byte) (kd : Word) (es : List Event) : List Event :=
  match es with
  | [] => []
  | .step r' kd' :: rest => .step r' kd' :: rest
  | .reset _ :: _ | .tick :: _ | .key _ :: _ | .abort :: _ => .step r kd :: es

/-- The state with a word placed where the next STEP fetches, and a STEP next: `RUNNING`, `pc` kept where an instruction can
execute, else 0x200 (log entry 9). -/
def State.placeWord (w : Word) (s : State) : State :=
  let pc : Word := if inProgramRegion s.pc && s.pc != 0xFFF then s.pc else 0x200
  (({ s with status := .running, inputs := stepFirst s.randByte s.keyDown s.inputs }).setPc pc).storeBytes pc.toNat
    [highByte w, lowByte w]

end Sys2Proof.Machine
end

