-- ==== Sys2Proof/Safety.lean ====
section
/-! DEFINITION. Safety.lean: the terms claims use: the invariant of the states a RESET leads to (10_state.md R37), the frame of
an instruction, and when the host's next event is a STEP that fetches a given word. -/

namespace Sys2Proof.Machine

/-! ## The invariant -/

/-- The fault record says nothing (`fault_code` 0, R251). -/
abbrev State.noRecord (s : State) : Prop :=
  s.faultCode = .none ∧ s.faultPc = 0 ∧ s.faultOpcode = 0 ∧ s.faultAddr = 0

/-- An instruction can execute at `pc`: both its bytes lie in the program region (R102, R103). -/
abbrev State.canFetch (s : State) : Prop := 0x200 ≤ s.pc.toNat ∧ s.pc.toNat < 0xFFF

/-- What holds of every state a RESET leads to. -/
structure State.Inv (s : State) : Prop where
  /-- Memory is in its canonical form. -/
  memWf : Memory.wf s.params.font s.mem
  /-- "no value reachable from an in-range `pc` exceeds 0x10FE" (R25). -/
  pcBound : s.pc.toNat ≤ 0x10FE
  /-- Every live entry is the `pc + 2` of a CALL that executed (R27, R123). -/
  liveReturns : ∀ j : Fin 16, j.val < s.sp.val → 0x202 ≤ (s.stack[j.val]).toNat ∧ (s.stack[j.val]).toNat ≤ 0x1000
  /-- While `WAIT_KEY` holds, the word at `pc` is the `Fx0A` of `wait_x` (R33, R236). -/
  waiting : s.status = .waitKey → s.canFetch ∧ decode s.fetchWord = .ok (.ldVxK s.waitX)
  /-- `ENDED` only with `pc` outside the program region (R32, R102). -/
  endedOutside : s.status = .ended → inProgramRegion s.pc = false
  /-- The record is written when, and only when, `status` becomes `FAULTED`, with the `pc` that stays (R34, R106, R252). -/
  record : if s.status = .faulted then s.faultCode ≠ .none ∧ s.faultPc = s.pc else s.noRecord

/-- The host lists no RESET whose image is too long to be placed (R281). -/
def State.loadable (s : State) : Prop := ∀ image, Event.reset image ∈ s.inputs → image.length ≤ 3584

/-! ## Frames -/

/-- What an instruction or event may change; everything not named here it keeps. The program counter is never part of a frame:
each statement says it for itself. -/
structure MayChange where
  /-- The general registers it may change, VF included where it writes VF. -/
  regs : Reg → Prop := fun _ => False
  /-- `I`. -/
  index : Bool := false
  /-- `sp`. -/
  sp : Bool := false
  /-- The stack entries it may change. -/
  stack : Fin 16 → Prop := fun _ => False
  /-- `dt`. -/
  dt : Bool := false
  /-- `st`. -/
  st : Bool := false
  /-- `fb`. -/
  fb : Bool := false
  /-- The addresses it may store to. -/
  bytes : Nat → Prop := fun _ => False
  /-- `status`. -/
  status : Bool := false
  /-- `wait_x`. -/
  waitX : Bool := false
  /-- The four fields of the fault record. -/
  record : Bool := false
  /-- `fb_update` events are sent. -/
  updates : Bool := false

/-- The two states agree on everything of R20 that `may` does not name (`pc` apart), on the parameters, on the values at the
input ports and on the host's side. -/
structure Keeps (may : MayChange) (s t : State) : Prop where
  regs : ∀ r, ¬ may.regs r → t.getV r = s.getV r
  index : may.index = false → t.i = s.i
  sp : may.sp = false → t.sp = s.sp
  stack : ∀ j : Fin 16, ¬ may.stack j → t.stack[j.val] = s.stack[j.val]
  dt : may.dt = false → t.dt = s.dt
  st : may.st = false → t.st = s.st
  fb : may.fb = false → t.fb = s.fb
  bytes : ∀ a, ¬ may.bytes a → t.readByte a = s.readByte a
  status : may.status = false → t.status = s.status
  waitX : may.waitX = false → t.waitX = s.waitX
  record : may.record = false →
    t.faultCode = s.faultCode ∧ t.faultPc = s.faultPc ∧ t.faultOpcode = s.faultOpcode ∧ t.faultAddr = s.faultAddr
  updates : may.updates = false → t.fbUpdates = s.fbUpdates
  params : t.params = s.params
  host : t.randByte = s.randByte ∧ t.keyDown = s.keyDown ∧ t.draws = s.draws ∧ t.inputs = s.inputs

/-- A fault of R251 was raised: `status` and the record as R252 says, `pc` kept, nothing else changed. -/
structure Faults (code : FaultCode) (opcode addr : Word) (s t : State) : Prop where
  status : t.status = .faulted
  code : t.faultCode = code
  pcRecorded : t.faultPc = s.pc
  opcode : t.faultOpcode = opcode
  addr : t.faultAddr = addr
  pcKept : t.pc = s.pc
  rest : Keeps { status := true, record := true } s t

/-! ## Sprites -/

/-- A set bit of the sprite lies on the pixel: row `r` and column `c` of an `n`-row sprite placed at `(px, py)`, wrapped on both
axes (R210, R211, R213). -/
def spriteCovers (sprite : Nat → Byte) (px py n : Nat) (qx : Fin 64) (qy : Fin 32) : Prop :=
  ∃ r, r < n ∧ ∃ c, c < 8 ∧ (sprite r).getLsbD (7 - c) = true ∧ qx.val = (px + c) % 64 ∧ qy.val = (py + r) % 32

/-- The sprite of `Dxyn` in a state: its bytes at `I`, its place `(Vx, Vy)` (R213). -/
def State.covers (s : State) (x y : Reg) (n : Nibble) (qx : Fin 64) (qy : Fin 32) : Prop :=
  spriteCovers (fun r => s.readByte (s.i.toNat + r)) (s.getV x).toNat (s.getV y).toNat n.toNat qx qy

/-! ## Which event is next -/

/-- The values a STEP presents are at the ports while it runs; no other event presents any (R45). -/
def Event.applied (e : Event) (s : State) : State :=
  match e with
  | .step r kd => s.present r kd
  | .reset _ | .tick | .key _ | .abort => s

/-- The next event is `e`, and `s'` is the state it acts on: the host's list without it, its values at the ports. -/
inductive NextEvent : State → Event → State → Prop where
  /-- The host lists `e` next. -/
  | listed (s : State) (e : Event) (rest : List Event) :
      s.inputs = e :: rest → NextEvent s e (e.applied (s.setInputs rest))
  /-- The host lists nothing: a STEP with free draws. -/
  | free (s : State) : s.inputs = [] →
      NextEvent s (.step (Config.freeRandByte s.draws) (Config.freeKeyDown s.draws)) s.drawFree

/-- The events each `status` accepts (R32). -/
def Event.acceptedIn (e : Event) (st : Status) : Bool :=
  match e, st with
  | .reset _, _ => true
  | .step _ _, .running => true
  | .tick, .running | .tick, .waitKey => true
  | .key _, .waitKey | .abort, .waitKey => true
  | .step _ _, .waitKey | .step _ _, .ended | .step _ _, .faulted => false
  | .tick, .ended | .tick, .faulted => false
  | .key _, .running | .key _, .ended | .key _, .faulted => false
  | .abort, .running | .abort, .ended | .abort, .faulted => false

/-- Every state element of R20 is the same, and no `fb_update` was sent. -/
structure SameArch (s t : State) : Prop where
  v : t.v = s.v
  i : t.i = s.i
  pc : t.pc = s.pc
  sp : t.sp = s.sp
  stack : t.stack = s.stack
  dt : t.dt = s.dt
  st : t.st = s.st
  fb : t.fb = s.fb
  mem : t.mem = s.mem
  status : t.status = s.status
  waitX : t.waitX = s.waitX
  faultCode : t.faultCode = s.faultCode
  faultPc : t.faultPc = s.faultPc
  faultOpcode : t.faultOpcode = s.faultOpcode
  faultAddr : t.faultAddr = s.faultAddr
  params : t.params = s.params
  fbUpdates : t.fbUpdates = s.fbUpdates

/-- The two states agree on everything but the dead elements of R37: stack entries at `sp` and above, and `wait_x` outside the
key wait. -/
structure SameLive (s t : State) : Prop where
  rest : t = { s with stack := t.stack, waitX := t.waitX }
  stack : ∀ j : Fin 16, j.val < s.sp.val → t.stack[j.val] = s.stack[j.val]
  waitX : s.status = .waitKey → t.waitX = s.waitX

/-- Instructions executed one after the other, stopping where one does not answer a next state. -/
def execAll : List Instr → State → Host.Outcome State Fault Refusal
  | [], s => .next s
  | i :: rest, s =>
    match exec i s with
    | .next t => execAll rest t
    | .fault f => .fault f
    | .refused r => .refused r

end Sys2Proof.Machine
end

