-- ==== Sys2Proof/Certificates/Slice0/Obligations.lean ====
section
/-! DEFINITION. Certificates/Slice0/Obligations.lean: the statements for the provers. Each docstring names the rules of spec/ it
formalises; where a clause rests on a decision the spec marks as its own (92_eei_decisions.md) or on a choice of this model (the
log), the docstring names it. -/

open Sys2Proof Sys2Proof.Machine

/-! ## Encoding -/

/-- A sanity statement: words written out from the patterns of R84 decode to the instructions they stand for, and an illegal word
of each of the five groups of R91 to none (decision D20). -/
def Obligations.WrittenOutWordsDecode : Prop :=
  decode 0x00E0 = .ok .cls ∧ decode 0x00EE = .ok .ret ∧ decode 0x0000 = .ok (.sys 0x000) ∧
  decode 0x1ABC = .ok (.jp 0xABC) ∧ decode 0x3A42 = .ok (.seVxKk 0xA 0x42) ∧ decode 0x8AB4 = .ok (.addVxVy 0xA 0xB) ∧
  decode 0xA123 = .ok (.ldI 0x123) ∧ decode 0xD015 = .ok (.drw 0x0 0x1 0x5) ∧ decode 0xE5A1 = .ok (.sknp 0x5) ∧
  decode 0xF30A = .ok (.ldVxK 0x3) ∧ decode 0x5121 = .error (.family5 0x5121) ∧ decode 0x8008 = .error (.family8 0x8008) ∧
  decode 0x9AB1 = .error (.family9 0x9AB1) ∧ decode 0xE09F = .error (.familyE 0xE09F) ∧
  decode 0xFF75 = .error (.familyF 0xFF75)

/-- R84: a word decodes to an instruction exactly when the row of that instruction selects it, with the operands in the fields the
row's pattern names. The low nibbles of `8xy1` to `8xy3`, `8xy6`, `8xy7` are the spec's decision D41, and that a word no row
selects is illegal its decision D20. -/
def Obligations.DecodeFollowsTheOpcodeMap : Prop :=
  ∀ (w : Word) (i : Instr), decode w = .ok i ↔ i.selectedBy w

/-- Decoding what the encoder writes for a well-formed instruction gives it back, every operand at every value. -/
def Obligations.DecodeOfEncodeIsIdentity : Prop :=
  ∀ i : Instr, i.wf = true → decode (encode i) = .ok i ∧
    ∀ rest : List Byte, decodeBytes (encodeBytes i ++ rest) = .ok (i, rest)

/-- The other direction: a word that decodes is the one word of the instruction it decodes to, and that instruction is
well-formed. -/
def Obligations.EncodeOfDecodeIsTheWord : Prop :=
  ∀ (w : Word) (i : Instr), decode w = .ok i → i.wf = true ∧ encode i = w

/-- The illegal words of R91 (which words they are is the spec's decision D20). -/
def Obligations.IllegalWordsAreTheFiveGroups : Prop :=
  ∀ w : Word, (∃ e, decode w = .error e) ↔
    (opField w = 0x5 ∧ nField w ≠ 0) ∨
    (opField w = 0x9 ∧ nField w ≠ 0) ∨
    (opField w = 0x8 ∧ nField w ∈ ([0x8, 0x9, 0xA, 0xB, 0xC, 0xD, 0xF] : List Nibble)) ∨
    (opField w = 0xE ∧ kkField w ∉ ([0x9E, 0xA1] : List Byte)) ∨
    (opField w = 0xF ∧ kkField w ∉ ([0x07, 0x0A, 0x15, 0x18, 0x1E, 0x29, 0x33, 0x55, 0x65] : List Byte))

/-! ## The cycle -/

/-- R101, R103 to R105: where the two bytes at `pc` decode to an instruction, a STEP is that instruction's `exec`, on the state with
the STEP taken off the host's list and its values at the ports (log entries 1, 2); nothing else is added around it. -/
def Obligations.StepRunsTheDecodedInstruction : Prop :=
  ∀ (s s' : State) (r : Byte) (kd : Word) (i : Instr), NextEvent s (.step r kd) s' → s.status = .running → s.canFetch →
    decode (wordOfBytes (s.readByte s.pc.toNat) (s.readByte (s.pc.toNat + 1))) = .ok i →
    step s = exec i s' ∧ s'.randByte = r ∧ s'.keyDown = kd ∧ SameArch s s'

/-- R102: outside [0x200, 0x1000) the STEP sets `status` to `ENDED` and changes nothing else (decision D19). -/
def Obligations.StepOutsideTheProgramRegionEndsTheRun : Prop :=
  ∀ (s s' : State) (r : Byte) (kd : Word), NextEvent s (.step r kd) s' → s.status = .running →
    (s.pc.toNat < 0x200 ∨ 0x1000 ≤ s.pc.toNat) →
    ∃ t, step s = .next t ∧ t.status = .ended ∧ t.pc = s.pc ∧ Keeps { status := true } s' t

/-- R103 at the last address: the second byte would be at 0x1000 (decision D18). -/
def Obligations.FetchAtTheLastAddressFaults : Prop :=
  ∀ (s s' : State) (r : Byte) (kd : Word), NextEvent s (.step r kd) s' → s.status = .running → s.pc = 0xFFF →
    ∃ t, step s = .next t ∧ Faults .memoryRange 0x0000 0x1000 s' t

/-- R103, R64: the word of a STEP is `b0 ++ b1`, the byte at `pc` the high one, whatever the parity of `pc`; and where it is illegal,
R104: the STEP raises `UNKNOWN_OPCODE` with that word. -/
def Obligations.IllegalWordRaisesUnknownOpcode : Prop :=
  ∀ (s s' : State) (r : Byte) (kd : Word) (w : Word) (e : DecodeError), NextEvent s (.step r kd) s' → s.status = .running →
    s.canFetch → w.toNat = (s.readByte s.pc.toNat).toNat * 256 + (s.readByte (s.pc.toNat + 1)).toNat →
    decode w = .error e →
    ∃ t, step s = .next t ∧ Faults .unknownOpcode w 0 s' t

/-- R46: an event the current `status` does not accept has no effect on any state element, and the machine goes on
(decisions D22, D25). -/
def Obligations.UnacceptedEventsChangeNothing : Prop :=
  ∀ (s s' : State) (e : Event), NextEvent s e s' → e.acceptedIn s.status = false →
    step s = .next s' ∧ SameArch s s'

/-- R110, R254: a halted machine stays as it is through any number of events, RESET apart (decision D22). -/
def Obligations.HaltedMachineStaysHalted : Prop :=
  ∀ (k : Nat) (s : State), (s.status = .ended ∨ s.status = .faulted) → (∀ image, Event.reset image ∉ s.inputs) →
    ∃ t, Sys2Proof.core.run k s = .next t ∧ SameArch s t

/-! ## TICK, KEY, ABORT, RESET -/

/-- R231: a TICK decrements each counter that is not zero and changes nothing else, in `RUNNING` and in `WAIT_KEY`. -/
def Obligations.TickCountsBothTimersDown : Prop :=
  ∀ s s' : State, NextEvent s .tick s' → (s.status = .running ∨ s.status = .waitKey) →
    ∃ t, step s = .next t ∧ t.dt.toNat = s.dt.toNat - 1 ∧ t.st.toNat = s.st.toNat - 1 ∧ t.pc = s.pc ∧
      Keeps { dt := true, st := true } s' t

/-- R231 over any number of TICKs: each counter goes down by one a TICK to 0 and stays there; nothing else changes. -/
def Obligations.TicksDrainTheTimersToZero : Prop :=
  ∀ (k : Nat) (s : State) (rest : List Event), (s.status = .running ∨ s.status = .waitKey) →
    s.inputs = List.replicate k .tick ++ rest →
    ∃ t, Sys2Proof.core.run k s = .next t ∧ t.dt.toNat = s.dt.toNat - k ∧ t.st.toNat = s.st.toNat - k ∧ t.pc = s.pc ∧
      t.inputs = rest ∧ Keeps { dt := true, st := true } (s.setInputs rest) t

/-- R237: KEY(c) completes the waiting `Fx0A` (decision D24). -/
def Obligations.KeyCompletesTheWait : Prop :=
  ∀ (s s' : State) (c : Byte), NextEvent s (.key c) s' → s.status = .waitKey →
    ∃ t, step s = .next t ∧ t.getV s.waitX = c ∧ t.pc = s.pc + 2 ∧ t.status = .running ∧
      Keeps { regs := (· = s.waitX), status := true } s' t

/-- R238: ABORT during the wait raises `INPUT_ABORTED` with the word at `pc` (decision D24). The premise that both bytes of that
word exist holds in every state with the invariant; where they do not, the model stops under the name of log entry 10. -/
def Obligations.AbortRaisesInputAborted : Prop :=
  ∀ s s' : State, NextEvent s .abort s' → s.status = .waitKey →
    (s.pc.toNat + 1 < 0x1000 →
      ∃ t, step s = .next t ∧
        Faults .inputAborted (wordOfBytes (s.readByte s.pc.toNat) (s.readByte (s.pc.toNat + 1))) 0 s' t) ∧
    (0x1000 ≤ s.pc.toNat + 1 → step s = .fault (.absentAddress (max s.pc.toNat 0x1000)))

/-- R280 with R38 and R39: RESET(P) in every `status` (what the source does not name is decided by the spec in D30, D40). The
parameters, the rest of the host's list and the updates already sent stay (log entries 3, 1, 5). -/
def Obligations.ResetEventSetsEveryStateElement : Prop :=
  ∀ (s s' : State) (image : List Byte), NextEvent s (.reset image) s' → image.length ≤ 3584 →
    ∃ t, step s = .next t ∧
      (∀ r, t.getV r = 0) ∧ t.i = 0 ∧ t.pc = 0x200 ∧ t.sp = 0 ∧ (∀ j : Fin 16, t.stack[j.val] = 0) ∧ t.dt = 0 ∧ t.st = 0 ∧
      (∀ qx qy, t.pixel qx qy = false) ∧
      (∀ k : Fin 80, t.readByte k.val = s.params.font[k.val]) ∧
      (∀ a, 0x050 ≤ a → a < 0x200 → t.readByte a = 0) ∧
      (∀ k (h : k < image.length), t.readByte (0x200 + k) = image[k]) ∧
      (∀ a, 0x200 + image.length ≤ a → a ≤ 0xFFF → t.readByte a = 0) ∧
      t.status = .running ∧ t.waitX = 0 ∧ t.noRecord ∧
      t.params = s.params ∧ t.inputs = s'.inputs ∧ t.fbUpdates = s.fbUpdates

/-- R281: an image of more than 3584 bytes is refused (decision D32); the name of the refusal is the model's (log entry 12). -/
def Obligations.TooLongImageIsRefused : Prop :=
  ∀ (s s' : State) (image : List Byte), NextEvent s (.reset image) s' → 3584 < image.length →
    step s = .refused (.imageTooLong image.length)

/-- The reset state (R38, R39) with the empty image and the default parameters (R8; log entries 3, 9). What the source does not name
is the spec's choice (D30). -/
def Obligations.ResetStateHoldsTheResetValues : Prop :=
  (∀ r, State.reset.getV r = 0) ∧ State.reset.i = 0 ∧ State.reset.pc = 0x200 ∧ State.reset.sp = 0 ∧
  (∀ j : Fin 16, State.reset.stack[j.val] = 0) ∧ State.reset.dt = 0 ∧ State.reset.st = 0 ∧
  (∀ qx qy, State.reset.pixel qx qy = false) ∧
  (∀ k : Fin 80, State.reset.readByte k.val = Config.standardFont[k.val]) ∧
  (∀ a, 0x050 ≤ a → State.reset.readByte a = 0) ∧
  State.reset.status = .running ∧ State.reset.waitX = 0 ∧ State.reset.noRecord

/-! ## Control transfer -/

/-- R121 and R122: `0nnn` has no effect but the advance; `1nnn` sets `pc` to `nnn` and changes nothing else. -/
def Obligations.SysAndJumpTakeTheirEffect : Prop :=
  ∀ (s : State) (nnn : Addr),
    (∃ t, exec (.sys nnn) s = .next t ∧ t.pc = s.pc + 2 ∧ Keeps {} s t) ∧
    (∃ t, exec (.jp nnn) s = .next t ∧ t.pc.toNat = nnn.toNat ∧ Keeps {} s t)

/-- R124: `pc` is the exact sum of `V0` and `nnn`; that it is not masked is decision D16. -/
def Obligations.JumpWithOffsetIsTheExactSum : Prop :=
  ∀ (s : State) (nnn : Addr),
    ∃ t, exec (.jpV0 nnn) s = .next t ∧ t.pc.toNat = (s.getV 0).toNat + nnn.toNat ∧ Keeps {} s t

/-- R123: with fewer than 16 entries saved a CALL saves `pc + 2` (decision D4) and jumps; with 16 it raises `STACK_OVERFLOW`. -/
def Obligations.CallSavesTheReturnAddress : Prop :=
  ∀ (s : State) (nnn : Addr),
    (s.sp.val < 16 →
      ∃ t, exec (.call nnn) s = .next t ∧ t.pc.toNat = nnn.toNat ∧ t.sp.val = s.sp.val + 1 ∧
        (∀ j : Fin 16, j.val = s.sp.val → t.stack[j.val] = s.pc + 2) ∧
        Keeps { sp := true, stack := fun j => j.val = s.sp.val } s t) ∧
    (s.sp = 16 → ∃ t, exec (.call nnn) s = .next t ∧ Faults .stackOverflow (encode (.call nnn)) 0 s t)

/-- R120: with an entry saved RET takes it as it is (decision D4) and clears none; with none it raises `STACK_UNDERFLOW`. -/
def Obligations.ReturnTakesTheSavedAddress : Prop :=
  ∀ s : State,
    (∀ j : Fin 16, s.sp.val = j.val + 1 →
      ∃ t, exec .ret s = .next t ∧ t.pc = s.stack[j.val] ∧ t.sp.val = j.val ∧ Keeps { sp := true } s t) ∧
    (s.sp = 0 → ∃ t, exec .ret s = .next t ∧ Faults .stackUnderflow 0x00EE 0 s t)

/-- R125: N matched CALL and RET, nested, return `pc` to its pre-CALL-sequence successor value and `sp` to its depth, whatever the
targets; only dead entries of the stack are written. -/
def Obligations.NestedCallsReturnToTheSuccessor : Prop :=
  ∀ (s : State) (targets : List Addr), targets ≠ [] → s.sp.val + targets.length ≤ 16 →
    ∃ t, execAll (targets.map .call ++ List.replicate targets.length .ret) s = .next t ∧ t.pc = s.pc + 2 ∧ t.sp = s.sp ∧
      Keeps { stack := fun j => s.sp.val ≤ j.val } s t

/-! ## Skips -/

/-- R140 to R143: the four skips on register values; nothing but `pc` changes. -/
def Obligations.SkipsOnRegisterValues : Prop :=
  ∀ (s : State) (x y : Reg) (kk : Byte),
    (∃ t, exec (.seVxKk x kk) s = .next t ∧ t.pc = (if s.getV x = kk then s.pc + 4 else s.pc + 2) ∧ Keeps {} s t) ∧
    (∃ t, exec (.sneVxKk x kk) s = .next t ∧ t.pc = (if s.getV x ≠ kk then s.pc + 4 else s.pc + 2) ∧ Keeps {} s t) ∧
    (∃ t, exec (.seVxVy x y) s = .next t ∧ t.pc = (if s.getV x = s.getV y then s.pc + 4 else s.pc + 2) ∧ Keeps {} s t) ∧
    (∃ t, exec (.sneVxVy x y) s = .next t ∧ t.pc = (if s.getV x ≠ s.getV y then s.pc + 4 else s.pc + 2) ∧ Keeps {} s t)

/-- R144 and R145 with R47: the key of code `V[x]` is down exactly when the port is connected, the code is one of the sixteen and its
bit of `key_down` is 1 (decision D23). -/
def Obligations.SkipsOnKeyState : Prop :=
  ∀ (s : State) (x : Reg),
    (∃ t, exec (.skp x) s = .next t ∧
      t.pc = (if s.params.hasKeyState = true ∧ (s.getV x).toNat < 16 ∧ s.keyDown.getLsbD (s.getV x).toNat = true
        then s.pc + 4 else s.pc + 2) ∧ Keeps {} s t) ∧
    (∃ t, exec (.sknp x) s = .next t ∧
      t.pc = (if s.params.hasKeyState = true ∧ (s.getV x).toNat < 16 ∧ s.keyDown.getLsbD (s.getV x).toNat = true
        then s.pc + 2 else s.pc + 4) ∧ Keeps {} s t)

/-! ## Register arithmetic and logic -/

/-- R160, R161, R162: no flag is written; VF changes only as the destination. -/
def Obligations.LoadsAndImmediateAdd : Prop :=
  ∀ (s : State) (x y : Reg) (kk : Byte),
    (∃ t, exec (.ldVxKk x kk) s = .next t ∧ t.getV x = kk ∧ t.pc = s.pc + 2 ∧ Keeps { regs := (· = x) } s t) ∧
    (∃ t, exec (.addVxKk x kk) s = .next t ∧ (t.getV x).toNat = ((s.getV x).toNat + kk.toNat) % 256 ∧ t.pc = s.pc + 2 ∧
      Keeps { regs := (· = x) } s t) ∧
    (∃ t, exec (.ldVxVy x y) s = .next t ∧ t.getV x = s.getV y ∧ t.pc = s.pc + 2 ∧ Keeps { regs := (· = x) } s t)

/-- R163, R164, R165, bit by bit; that VF is not reset is decision D8. -/
def Obligations.BitwiseOperations : Prop :=
  ∀ (s : State) (x y : Reg),
    (∃ t, exec (.orVxVy x y) s = .next t ∧
      (∀ k < 8, (t.getV x).getLsbD k = ((s.getV x).getLsbD k || (s.getV y).getLsbD k)) ∧ t.pc = s.pc + 2 ∧
      Keeps { regs := (· = x) } s t) ∧
    (∃ t, exec (.andVxVy x y) s = .next t ∧
      (∀ k < 8, (t.getV x).getLsbD k = ((s.getV x).getLsbD k && (s.getV y).getLsbD k)) ∧ t.pc = s.pc + 2 ∧
      Keeps { regs := (· = x) } s t) ∧
    (∃ t, exec (.xorVxVy x y) s = .next t ∧
      (∀ k < 8, (t.getV x).getLsbD k = ((s.getV x).getLsbD k ^^ (s.getV y).getLsbD k)) ∧ t.pc = s.pc + 2 ∧
      Keeps { regs := (· = x) } s t)

/-- R166: the sum modulo 256, VF 1 iff it exceeds 255; VF written last, so as destination it ends holding the flag (decision D7). -/
def Obligations.AddSetsVFToTheCarry : Prop :=
  ∀ (s : State) (x y : Reg),
    ∃ t, exec (.addVxVy x y) s = .next t ∧
      (x ≠ 0xF#4 → (t.getV x).toNat = ((s.getV x).toNat + (s.getV y).toNat) % 256) ∧
      t.getV 0xF#4 = (if 255 < (s.getV x).toNat + (s.getV y).toNat then 1 else 0) ∧ t.pc = s.pc + 2 ∧
      Keeps { regs := fun r => r = x ∨ r = 0xF#4 } s t

/-- R167 and R169: the difference modulo 256, VF 1 iff the minuend is strictly greater; VF written last (decision D7). -/
def Obligations.SubtractionsSetVFToNotBorrow : Prop :=
  ∀ (s : State) (x y : Reg),
    (∃ t, exec (.sub x y) s = .next t ∧
      (x ≠ 0xF#4 → ((t.getV x).toNat : Int) = ((s.getV x).toNat - (s.getV y).toNat : Int) % 256) ∧
      t.getV 0xF#4 = (if (s.getV y).toNat < (s.getV x).toNat then 1 else 0) ∧ t.pc = s.pc + 2 ∧
      Keeps { regs := fun r => r = x ∨ r = 0xF#4 } s t) ∧
    (∃ t, exec (.subn x y) s = .next t ∧
      (x ≠ 0xF#4 → ((t.getV x).toNat : Int) = ((s.getV y).toNat - (s.getV x).toNat : Int) % 256) ∧
      t.getV 0xF#4 = (if (s.getV x).toNat < (s.getV y).toNat then 1 else 0) ∧ t.pc = s.pc + 2 ∧
      Keeps { regs := fun r => r = x ∨ r = 0xF#4 } s t)

/-- R168 and R170 for both values of `SHIFT_SRC` (decision D6); VF is the bit shifted out, written last (decision D7). -/
def Obligations.ShiftsSetVFToTheBitShiftedOut : Prop :=
  ∀ (s : State) (x y : Reg) (src : Byte),
    (s.params.shiftSrc = .vx → src = s.getV x) → (s.params.shiftSrc = .vy → src = s.getV y) →
    (∃ t, exec (.shr x y) s = .next t ∧ (x ≠ 0xF#4 → (t.getV x).toNat = src.toNat / 2) ∧
      (t.getV 0xF#4).toNat = src.toNat % 2 ∧ t.pc = s.pc + 2 ∧ Keeps { regs := fun r => r = x ∨ r = 0xF#4 } s t) ∧
    (∃ t, exec (.shl x y) s = .next t ∧ (x ≠ 0xF#4 → (t.getV x).toNat = src.toNat * 2 % 256) ∧
      (t.getV 0xF#4).toNat = src.toNat / 128 ∧ t.pc = s.pc + 2 ∧ Keeps { regs := fun r => r = x ∨ r = 0xF#4 } s t)

/-- R171: the byte the host presents masked by `kk`; the byte is free (R47, decision D29). -/
def Obligations.RandomByteIsMasked : Prop :=
  ∀ (s : State) (x : Reg) (kk : Byte),
    ∃ t, exec (.rnd x kk) s = .next t ∧ t.getV x = s.randByte &&& kk ∧
      (∀ k < 8, kk.getLsbD k = false → (t.getV x).getLsbD k = false) ∧ t.pc = s.pc + 2 ∧ Keeps { regs := (· = x) } s t

/-- R22: no flag result depends on what VF held before, where VF is no operand: an arithmetic instruction, or a draw that does not
fault, answers the same state whatever VF held (decision D39). -/
def Obligations.FlagsDoNotDependOnTheOldVF : Prop :=
  ∀ (s : State) (x y : Reg) (n : Nibble) (b : Byte), x ≠ 0xF#4 → y ≠ 0xF#4 →
    exec (.addVxVy x y) (s.setV 0xF#4 b) = exec (.addVxVy x y) s ∧ exec (.sub x y) (s.setV 0xF#4 b) = exec (.sub x y) s ∧
    exec (.shr x y) (s.setV 0xF#4 b) = exec (.shr x y) s ∧ exec (.subn x y) (s.setV 0xF#4 b) = exec (.subn x y) s ∧
    exec (.shl x y) (s.setV 0xF#4 b) = exec (.shl x y) s ∧
    (s.i.toNat + n.toNat ≤ 0x1000 → exec (.drw x y n) (s.setV 0xF#4 b) = exec (.drw x y n) s)

/-! ## Index register and memory -/

/-- R190. -/
def Obligations.LoadIndexImmediate : Prop :=
  ∀ (s : State) (nnn : Addr),
    ∃ t, exec (.ldI nnn) s = .next t ∧ t.i.toNat = nnn.toNat ∧ t.pc = s.pc + 2 ∧ Keeps { index := true } s t

/-- R191 (the wrap at 65536 is decision D14) and R192 (the unmasked product is decision D15). -/
def Obligations.IndexArithmetic : Prop :=
  ∀ (s : State) (x : Reg),
    (∃ t, exec (.addIVx x) s = .next t ∧ t.i.toNat = (s.i.toNat + (s.getV x).toNat) % 65536 ∧ t.pc = s.pc + 2 ∧
      Keeps { index := true } s t) ∧
    (∃ t, exec (.ldFVx x) s = .next t ∧ t.i.toNat = (s.getV x).toNat * 5 ∧ t.pc = s.pc + 2 ∧ Keeps { index := true } s t)

/-- R193: three digits at `I`, `I + 1`, `I + 2`, or `MEMORY_RANGE` with nothing written (decision D12). -/
def Obligations.BcdStoresThreeDigits : Prop :=
  ∀ (s : State) (x : Reg),
    (s.i.toNat + 2 < 0x1000 →
      ∃ t, exec (.ldBVx x) s = .next t ∧
        (t.readByte s.i.toNat).toNat = (s.getV x).toNat / 100 ∧
        (t.readByte (s.i.toNat + 1)).toNat = (s.getV x).toNat / 10 % 10 ∧
        (t.readByte (s.i.toNat + 2)).toNat = (s.getV x).toNat % 10 ∧ t.pc = s.pc + 2 ∧
        Keeps { bytes := fun a => s.i.toNat ≤ a ∧ a < s.i.toNat + 3 } s t) ∧
    (0x1000 ≤ s.i.toNat + 2 → ∀ addr : Word, addr.toNat = max s.i.toNat 0x1000 →
      ∃ t, exec (.ldBVx x) s = .next t ∧ Faults .memoryRange (encode (.ldBVx x)) addr s t)

/-- R194: `V0..Vx` at `I..I + x`, `I` unchanged (decision D13), or `MEMORY_RANGE` with nothing written (decision D12). -/
def Obligations.StoreRegistersFromIndex : Prop :=
  ∀ (s : State) (x : Reg),
    (s.i.toNat + x.toNat < 0x1000 →
      ∃ t, exec (.ldMemVx x) s = .next t ∧ (∀ r : Reg, r.toNat ≤ x.toNat → t.readByte (s.i.toNat + r.toNat) = s.getV r) ∧
        t.pc = s.pc + 2 ∧ Keeps { bytes := fun a => s.i.toNat ≤ a ∧ a < s.i.toNat + (x.toNat + 1) } s t) ∧
    (0x1000 ≤ s.i.toNat + x.toNat → ∀ addr : Word, addr.toNat = max s.i.toNat 0x1000 →
      ∃ t, exec (.ldMemVx x) s = .next t ∧ Faults .memoryRange (encode (.ldMemVx x)) addr s t)

/-- R195: `V0..Vx` from `I..I + x`, the other registers, `I` (decision D13) and all of memory unchanged, or `MEMORY_RANGE` with no
register written (decision D12). -/
def Obligations.LoadRegistersFromIndex : Prop :=
  ∀ (s : State) (x : Reg),
    (s.i.toNat + x.toNat < 0x1000 →
      ∃ t, exec (.ldVxMem x) s = .next t ∧ (∀ r : Reg, r.toNat ≤ x.toNat → t.getV r = s.readByte (s.i.toNat + r.toNat)) ∧
        t.pc = s.pc + 2 ∧ Keeps { regs := fun r => r.toNat ≤ x.toNat } s t) ∧
    (0x1000 ≤ s.i.toNat + x.toNat → ∀ addr : Word, addr.toNat = max s.i.toNat 0x1000 →
      ∃ t, exec (.ldVxMem x) s = .next t ∧ Faults .memoryRange (encode (.ldVxMem x)) addr s t)

/-- The round trip of R195: `V0..Vx` stored and then loaded, by the same `I` and the same bytes, into any register file, are the
original values. -/
def Obligations.StoreThenLoadRestoresTheRegisters : Prop :=
  ∀ (s t u w : State) (x : Reg), s.i.toNat + x.toNat < 0x1000 → exec (.ldMemVx x) s = .next t → u.i = s.i →
    (∀ k, k ≤ x.toNat → u.readByte (s.i.toNat + k) = t.readByte (s.i.toNat + k)) → exec (.ldVxMem x) u = .next w →
    ∀ r : Reg, r.toNat ≤ x.toNat → w.getV r = s.getV r

/-- R74: a word that `Fx55` writes over the next instruction is the word the next STEP fetches (decision D4). -/
def Obligations.StoredWordIsTheNextFetched : Prop :=
  ∀ (s t : State) (x k k' : Reg), s.i.toNat + x.toNat < 0x1000 → k'.toNat = k.toNat + 1 → k'.toNat ≤ x.toNat →
    s.i.toNat + k.toNat = (s.pc + 2).toNat → exec (.ldMemVx x) s = .next t →
    t.fetchWord = wordOfBytes (s.getV k) (s.getV k')

/-! ## Display -/

/-- R212 with R48: every pixel 0, one `fb_update` with that grid, VF and all else unchanged. -/
def Obligations.ClearScreenClearsEveryPixel : Prop :=
  ∀ s : State,
    ∃ t, exec .cls s = .next t ∧ (∀ qx qy, t.pixel qx qy = false) ∧ t.fbUpdates = s.fbUpdates ++ [t.fb] ∧ t.pc = s.pc + 2 ∧
      Keeps { fb := true, updates := true } s t

/-- R210, R211, R213, R214, R215: a draw flips exactly the pixels a set bit of the sprite lies on, wrapped on both axes, VF is 1 iff one
of them was set, and one `fb_update` is sent; or `MEMORY_RANGE` with no pixel changed (decisions D7, D9 to D12, D33). -/
def Obligations.DrawFlipsTheSpriteAndReportsCollision : Prop :=
  ∀ (s : State) (x y : Reg) (n : Nibble),
    ((n = 0 ∨ s.i.toNat + n.toNat ≤ 0x1000) →
      ∃ t, exec (.drw x y n) s = .next t ∧
        (∀ qx qy, s.covers x y n qx qy → t.pixel qx qy = !s.pixel qx qy) ∧
        (∀ qx qy, ¬ s.covers x y n qx qy → t.pixel qx qy = s.pixel qx qy) ∧
        (t.getV 0xF#4 = 0 ∨ t.getV 0xF#4 = 1) ∧
        (t.getV 0xF#4 = 1 ↔ ∃ qx qy, s.covers x y n qx qy ∧ s.pixel qx qy = true) ∧
        t.fbUpdates = s.fbUpdates ++ [t.fb] ∧ t.pc = s.pc + 2 ∧
        Keeps { regs := (· = 0xF#4), fb := true, updates := true } s t) ∧
    (n ≠ 0 → 0x1000 ≤ s.i.toNat + n.toNat - 1 → ∀ addr : Word, addr.toNat = max s.i.toNat 0x1000 →
      ∃ t, exec (.drw x y n) s = .next t ∧ Faults .memoryRange (encode (.drw x y n)) addr s t)

/-- R216: the same sprite drawn again at the same place restores every pixel, and the second draw reports collision exactly when some
pixel under a set sprite bit was 0 before the first. -/
def Obligations.DrawingTwiceRestoresTheFramebuffer : Prop :=
  ∀ (s t t' u : State) (x y : Reg) (n : Nibble), (n = 0 ∨ s.i.toNat + n.toNat ≤ 0x1000) →
    exec (.drw x y n) s = .next t →
    t'.fb = t.fb → t'.i = s.i → t'.getV x = s.getV x → t'.getV y = s.getV y → (∀ a, t'.readByte a = s.readByte a) →
    exec (.drw x y n) t' = .next u →
    u.fb = s.fb ∧ (u.getV 0xF#4 = 1 ↔ ∃ qx qy, s.covers x y n qx qy ∧ s.pixel qx qy = false)

/-! ## Timers and the key wait -/

/-- R232, R233, R234 with R49. -/
def Obligations.TimerInstructions : Prop :=
  ∀ (s : State) (x : Reg),
    (∃ t, exec (.ldVxDt x) s = .next t ∧ t.getV x = s.dt ∧ t.pc = s.pc + 2 ∧ Keeps { regs := (· = x) } s t) ∧
    (∃ t, exec (.ldDtVx x) s = .next t ∧ t.dt = s.getV x ∧ t.pc = s.pc + 2 ∧ Keeps { dt := true } s t) ∧
    (∃ t, exec (.ldStVx x) s = .next t ∧ t.st = s.getV x ∧ (t.soundOn = true ↔ s.getV x ≠ 0) ∧ t.pc = s.pc + 2 ∧
      Keeps { st := true } s t)

/-- R236: the wait is entered, `pc` held, no register changed (decision D24). -/
def Obligations.KeyWaitIsEntered : Prop :=
  ∀ (s : State) (x : Reg),
    ∃ t, exec (.ldVxK x) s = .next t ∧ t.status = .waitKey ∧ t.waitX = x ∧ t.pc = s.pc ∧
      Keeps { status := true, waitX := true } s t

/-! ## Rules of the whole machine -/

/-- R108, R252: whatever event makes the machine faulted, only `status` and the record are written, and the record names a fault
(decisions D12, D37). -/
def Obligations.FaultsArePrecise : Prop :=
  ∀ (s s' t : State) (e : Event), NextEvent s e s' → step s = .next t → s.status ≠ .faulted → t.status = .faulted →
    ∃ code opcode addr, code ≠ .none ∧ Faults code opcode addr s' t

/-- R253 with the table of R251: an instruction that leaves a running machine faulted is one of these six, on its one condition, with
its one code. -/
def Obligations.EachInstructionHasOneFault : Prop :=
  ∀ (i : Instr) (s t : State), exec i s = .next t → s.status ≠ .faulted → t.status = .faulted →
    (i = .ret ∧ s.sp = 0 ∧ t.faultCode = .stackUnderflow) ∨
    (∃ nnn, i = .call nnn ∧ s.sp = 16 ∧ t.faultCode = .stackOverflow) ∨
    (t.faultCode = .memoryRange ∧
      ((∃ x y n, i = .drw x y n ∧ n ≠ 0 ∧ 0x1000 ≤ s.i.toNat + n.toNat - 1) ∨
       (∃ x, i = .ldBVx x ∧ 0x1000 ≤ s.i.toNat + 2) ∨
       (∃ x, (i = .ldMemVx x ∨ i = .ldVxMem x) ∧ 0x1000 ≤ s.i.toNat + x.toNat)))

/-- R106: an instruction that does not jump, skip, fault or wait advances `pc` by 2, and only those named set it otherwise. -/
def Obligations.OnlyTransfersSetThePc : Prop :=
  ∀ (i : Instr) (s t : State), exec i s = .next t → t.pc ≠ s.pc + 2 →
    (∃ nnn, i = .jp nnn ∨ i = .call nnn ∨ i = .jpV0 nnn) ∨ i = .ret ∨
    (∃ x kk, i = .seVxKk x kk ∨ i = .sneVxKk x kk) ∨ (∃ x y, i = .seVxVy x y ∨ i = .sneVxVy x y) ∨
    (∃ x, i = .skp x ∨ i = .sknp x ∨ i = .ldVxK x) ∨
    (t.status = .faulted ∧ t.pc = s.pc)

/-- R62: no instruction but `Fx33` and `Fx55` changes a byte of memory. -/
def Obligations.OnlyBcdAndStoreWriteMemory : Prop :=
  ∀ (i : Instr) (s t : State) (a : Nat), exec i s = .next t → t.readByte a ≠ s.readByte a →
    ∃ x, i = .ldBVx x ∨ i = .ldMemVx x

/-- R217, R48: the framebuffer is changed only by RESET or by a STEP that executes `00E0` or `Dxyn`, and an `fb_update` is sent exactly
by such a STEP that does not fault, with the grid it leaves (decision D33). -/
def Obligations.OnlyClearAndDrawTouchTheFramebuffer : Prop :=
  ∀ (s s' t : State) (e : Event), NextEvent s e s' → step s = .next t →
    (t.fb ≠ s.fb → (∃ image, e = .reset image) ∨
      (∃ r kd, e = .step r kd) ∧ (decode s.fetchWord = .ok .cls ∨ ∃ x y n, decode s.fetchWord = .ok (.drw x y n))) ∧
    ((t.fbUpdates = s.fbUpdates ∧
        ¬ ((∃ r kd, e = .step r kd) ∧ s.status = .running ∧ s.canFetch ∧ t.status = .running ∧
          (decode s.fetchWord = .ok .cls ∨ ∃ x y n, decode s.fetchWord = .ok (.drw x y n)))) ∨
      (t.fbUpdates = s.fbUpdates ++ [t.fb] ∧ (∃ r kd, e = .step r kd) ∧
        (decode s.fetchWord = .ok .cls ∨ ∃ x y n, decode s.fetchWord = .ok (.drw x y n))))

/-- R217: no instruction reads a pixel except through the collision bit of `Dxyn`: any other instruction does the same to everything
else, whatever the framebuffer holds. -/
def Obligations.PixelsReachNothingButCollision : Prop :=
  ∀ (i : Instr) (s t : State) (f : Framebuffer), (∀ x y n, i ≠ .drw x y n) → exec i s = .next t →
    ∃ t', exec i { s with fb := f } = .next t' ∧ { t' with fb := t.fb } = t

/-- R26: `sp` is changed only by `2nnn` (plus one) and `00EE` (minus one), RESET apart. -/
def Obligations.OnlyCallAndReturnMoveTheStackPointer : Prop :=
  ∀ (s s' t : State) (e : Event), NextEvent s e s' → step s = .next t → t.sp ≠ s.sp →
    (∃ image, e = .reset image) ∨
    ((∃ r kd, e = .step r kd) ∧
      ((∃ nnn, decode s.fetchWord = .ok (.call nnn) ∧ t.sp.val = s.sp.val + 1) ∨
       (decode s.fetchWord = .ok .ret ∧ t.sp.val + 1 = s.sp.val)))

/-- R28, R29, R260: a timer is changed only by RESET, by a TICK, or by a STEP that executes the one instruction that writes it. -/
def Obligations.OnlyTheirWritersChangeTheTimers : Prop :=
  ∀ (s s' t : State) (e : Event), NextEvent s e s' → step s = .next t →
    (t.dt ≠ s.dt → (∃ image, e = .reset image) ∨ e = .tick ∨
      ((∃ r kd, e = .step r kd) ∧ ∃ x, decode s.fetchWord = .ok (.ldDtVx x) ∧ t.dt = s.getV x)) ∧
    (t.st ≠ s.st → (∃ image, e = .reset image) ∨ e = .tick ∨
      ((∃ r kd, e = .step r kd) ∧ ∃ x, decode s.fetchWord = .ok (.ldStVx x) ∧ t.st = s.getV x))

/-- R23: an instruction changes no general register outside the column "writes" of its row. -/
def Obligations.RegistersWrittenAreThoseOfTheTable : Prop :=
  ∀ (i : Instr) (s t : State) (r : Reg), exec i s = .next t → t.getV r ≠ s.getV r →
    (∃ x kk, r = x ∧ (i = .ldVxKk x kk ∨ i = .addVxKk x kk ∨ i = .rnd x kk)) ∨
    (∃ x y, r = x ∧ (i = .ldVxVy x y ∨ i = .orVxVy x y ∨ i = .andVxVy x y ∨ i = .xorVxVy x y)) ∨
    (∃ x y, (r = x ∨ r = 0xF#4) ∧ (i = .addVxVy x y ∨ i = .sub x y ∨ i = .subn x y ∨ i = .shr x y ∨ i = .shl x y)) ∨
    (∃ x y n, r = 0xF#4 ∧ i = .drw x y n) ∨
    (∃ x, r = x ∧ i = .ldVxDt x) ∨
    (∃ x, r.toNat ≤ x.toNat ∧ i = .ldVxMem x)

/-- No instruction touches the parameters or the host's side, the model's own fields (log entries 1, 2, 3). -/
def Obligations.InstructionsLeaveTheHostSideAlone : Prop :=
  ∀ (i : Instr) (s t : State), exec i s = .next t →
    t.params = s.params ∧ t.randByte = s.randByte ∧ t.keyDown = s.keyDown ∧ t.draws = s.draws ∧ t.inputs = s.inputs

/-- R37: no rule reads a dead element. Two states that differ only in stack entries at `sp` and above, and in `wait_x` outside the key
wait, stay so through every event, and one goes on where the other does. -/
def Obligations.DeadElementsAreNeverRead : Prop :=
  ∀ s₁ s₂ t₁ : State, SameLive s₁ s₂ → step s₁ = .next t₁ → ∃ t₂, step s₂ = .next t₂ ∧ SameLive t₁ t₂

/-! ## The invariant -/

/-- The reset state meets the invariant. -/
def Obligations.ResetStateMeetsTheInvariant : Prop := State.reset.Inv

/-- Every step keeps the invariant: the canonical memory, the bound of R25 on `pc`, live return addresses in the program region or just
past it, the waiting word of R236, the record of R34 and R252. -/
def Obligations.EveryStepKeepsTheInvariant : Prop :=
  ∀ s t : State, s.Inv → step s = .next t → t.Inv

/-- From a state with the invariant, and no RESET listed whose image cannot be placed, a step always answers a next state and leaves no
such RESET listed: no event stops the model (R100; log entries 4, 10). -/
def Obligations.NoEventStopsTheMachine : Prop :=
  ∀ s : State, s.Inv → s.loadable → ∃ t, step s = .next t ∧ t.loadable

/-- How a program comes to run (log entry 9): the word placed by `withFetchWord` is the one the very next step fetches and runs, from any
state and for any well-formed instruction. -/
def Obligations.PlacedWordRunsNext : Prop :=
  ∀ (s : State) (i : Instr), i.wf = true →
    ∃ r kd s', NextEvent (s.withFetchWord 16 (encode i).toNat) (.step r kd) s' ∧
      s'.fetchWord = encode i ∧ step (s.withFetchWord 16 (encode i).toNat) = exec i s'
end

