-- ==== Sys2Proof/Laws/Decode.lean ====
section
/-! SUPPORT. Laws/Decode.lean: the fields of a word put together from its parts, format by format (30_encoding.md R81), and a word
put together again from its fields. Each is arithmetic on the word as a number. -/

namespace Sys2Proof

variable (o x y n : BitVec 4) (kk : Byte) (nnn : Addr) (w : Word)

/-! ## A word as a number -/

theorem toNat_addr : BitVec.toNat (w := 16) (o ++ nnn) = o.toNat * 4096 + nnn.toNat := by
  show (o ++ nnn).toNat = _
  rw [BitVec.toNat_append, ← Nat.shiftLeft_add_eq_or_of_lt nnn.isLt, Nat.shiftLeft_eq]

theorem toNat_byte : BitVec.toNat (w := 16) (o ++ x ++ kk) = o.toNat * 4096 + x.toNat * 256 + kk.toNat := by
  show (o ++ x ++ kk).toNat = _
  rw [BitVec.toNat_append, BitVec.toNat_append, ← Nat.shiftLeft_add_eq_or_of_lt x.isLt,
    ← Nat.shiftLeft_add_eq_or_of_lt kk.isLt, Nat.shiftLeft_eq, Nat.shiftLeft_eq]
  omega

theorem toNat_nibbles : BitVec.toNat (w := 16) (o ++ x ++ y ++ n) =
    o.toNat * 4096 + x.toNat * 256 + y.toNat * 16 + n.toNat := by
  show (o ++ x ++ y ++ n).toNat = _
  rw [BitVec.toNat_append, BitVec.toNat_append, BitVec.toNat_append, ← Nat.shiftLeft_add_eq_or_of_lt x.isLt,
    ← Nat.shiftLeft_add_eq_or_of_lt y.isLt, ← Nat.shiftLeft_add_eq_or_of_lt n.isLt, Nat.shiftLeft_eq, Nat.shiftLeft_eq,
    Nat.shiftLeft_eq]
  omega

theorem toNat_opField : (opField w).toNat = w.toNat / 4096 := by
  rw [opField, BitVec.extractLsb'_toNat, Nat.shiftRight_eq_div_pow]; have := w.isLt; omega
theorem toNat_xField : (xField w).toNat = w.toNat / 256 % 16 := by
  rw [xField, BitVec.extractLsb'_toNat, Nat.shiftRight_eq_div_pow]
theorem toNat_yField : (yField w).toNat = w.toNat / 16 % 16 := by
  rw [yField, BitVec.extractLsb'_toNat, Nat.shiftRight_eq_div_pow]
theorem toNat_nField : (nField w).toNat = w.toNat % 16 := by
  rw [nField, BitVec.extractLsb'_toNat, Nat.shiftRight_zero]
theorem toNat_kkField : (kkField w).toNat = w.toNat % 256 := by
  rw [kkField, BitVec.extractLsb'_toNat, Nat.shiftRight_zero]
theorem toNat_nnnField : (nnnField w).toNat = w.toNat % 4096 := by
  rw [nnnField, BitVec.extractLsb'_toNat, Nat.shiftRight_zero]

/-! ## Format A -/

theorem opField_addr : opField (o ++ nnn) = o := by
  apply BitVec.eq_of_toNat_eq; rw [toNat_opField, toNat_addr]; have := nnn.isLt; omega
theorem nnnField_addr : nnnField (o ++ nnn) = nnn := by
  apply BitVec.eq_of_toNat_eq; rw [toNat_nnnField, toNat_addr]; have := nnn.isLt; omega

/-! ## Formats XK and XF -/

theorem opField_byte : opField (o ++ x ++ kk) = o := by
  apply BitVec.eq_of_toNat_eq; rw [toNat_opField, toNat_byte]; have := x.isLt; have := kk.isLt; omega
theorem xField_byte : xField (o ++ x ++ kk) = x := by
  apply BitVec.eq_of_toNat_eq; rw [toNat_xField, toNat_byte]; have := x.isLt; have := kk.isLt; omega
theorem kkField_byte : kkField (o ++ x ++ kk) = kk := by
  apply BitVec.eq_of_toNat_eq; rw [toNat_kkField, toNat_byte]; have := x.isLt; have := kk.isLt; omega

/-! ## Formats XY and XYN -/

theorem opField_nibbles : opField (o ++ x ++ y ++ n) = o := by
  apply BitVec.eq_of_toNat_eq; rw [toNat_opField, toNat_nibbles]; have := x.isLt; have := y.isLt; have := n.isLt; omega
theorem xField_nibbles : xField (o ++ x ++ y ++ n) = x := by
  apply BitVec.eq_of_toNat_eq; rw [toNat_xField, toNat_nibbles]; have := x.isLt; have := y.isLt; have := n.isLt; omega
theorem yField_nibbles : yField (o ++ x ++ y ++ n) = y := by
  apply BitVec.eq_of_toNat_eq; rw [toNat_yField, toNat_nibbles]; have := x.isLt; have := y.isLt; have := n.isLt; omega
theorem nField_nibbles : nField (o ++ x ++ y ++ n) = n := by
  apply BitVec.eq_of_toNat_eq; rw [toNat_nField, toNat_nibbles]; have := x.isLt; have := y.isLt; have := n.isLt; omega

/-! ## A word from its fields, and from its bytes -/

theorem word_of_addr_fields : (opField w ++ nnnField w : Word) = w := by
  apply BitVec.eq_of_toNat_eq; rw [toNat_addr, toNat_opField, toNat_nnnField]; omega
theorem word_of_byte_fields : (opField w ++ xField w ++ kkField w : Word) = w := by
  apply BitVec.eq_of_toNat_eq; rw [toNat_byte, toNat_opField, toNat_xField, toNat_kkField]; omega
theorem word_of_nibble_fields : (opField w ++ xField w ++ yField w ++ nField w : Word) = w := by
  apply BitVec.eq_of_toNat_eq; rw [toNat_nibbles, toNat_opField, toNat_xField, toNat_yField, toNat_nField]; omega

theorem wordOfBytes_bytes : wordOfBytes (highByte w) (lowByte w) = w := by
  apply BitVec.eq_of_toNat_eq
  show (highByte w ++ lowByte w).toNat = w.toNat
  rw [BitVec.toNat_append, ← Nat.shiftLeft_add_eq_or_of_lt (lowByte w).isLt, Nat.shiftLeft_eq, highByte, lowByte,
    BitVec.extractLsb'_toNat, BitVec.extractLsb'_toNat, Nat.shiftRight_eq_div_pow, Nat.shiftRight_zero]
  have := w.isLt; omega

end Sys2Proof
end

