-- ==== Sys2Proof/Laws/State.lean ====
section
/-! SUPPORT. Laws/State.lean: what each update of the state leaves in each field, one lemma per field per update, so that no
proof unfolds a record update; and the reads of a register, a pixel and a byte that an update does not touch. -/

namespace Sys2Proof.Machine

variable (s : State)

/-! ## setV -/

@[simp] theorem State.setV_v (r : Reg) (b : Byte) : (s.setV r b).v = s.v.set r.toNat b r.isLt := rfl
@[simp] theorem State.setV_i (r : Reg) (b : Byte) : (s.setV r b).i = s.i := rfl
@[simp] theorem State.setV_pc (r : Reg) (b : Byte) : (s.setV r b).pc = s.pc := rfl
@[simp] theorem State.setV_sp (r : Reg) (b : Byte) : (s.setV r b).sp = s.sp := rfl
@[simp] theorem State.setV_stack (r : Reg) (b : Byte) : (s.setV r b).stack = s.stack := rfl
@[simp] theorem State.setV_dt (r : Reg) (b : Byte) : (s.setV r b).dt = s.dt := rfl
@[simp] theorem State.setV_st (r : Reg) (b : Byte) : (s.setV r b).st = s.st := rfl
@[simp] theorem State.setV_fb (r : Reg) (b : Byte) : (s.setV r b).fb = s.fb := rfl
@[simp] theorem State.setV_mem (r : Reg) (b : Byte) : (s.setV r b).mem = s.mem := rfl
@[simp] theorem State.setV_status (r : Reg) (b : Byte) : (s.setV r b).status = s.status := rfl
@[simp] theorem State.setV_waitX (r : Reg) (b : Byte) : (s.setV r b).waitX = s.waitX := rfl
@[simp] theorem State.setV_faultCode (r : Reg) (b : Byte) : (s.setV r b).faultCode = s.faultCode := rfl
@[simp] theorem State.setV_faultPc (r : Reg) (b : Byte) : (s.setV r b).faultPc = s.faultPc := rfl
@[simp] theorem State.setV_faultOpcode (r : Reg) (b : Byte) : (s.setV r b).faultOpcode = s.faultOpcode := rfl
@[simp] theorem State.setV_faultAddr (r : Reg) (b : Byte) : (s.setV r b).faultAddr = s.faultAddr := rfl
@[simp] theorem State.setV_params (r : Reg) (b : Byte) : (s.setV r b).params = s.params := rfl
@[simp] theorem State.setV_randByte (r : Reg) (b : Byte) : (s.setV r b).randByte = s.randByte := rfl
@[simp] theorem State.setV_keyDown (r : Reg) (b : Byte) : (s.setV r b).keyDown = s.keyDown := rfl
@[simp] theorem State.setV_draws (r : Reg) (b : Byte) : (s.setV r b).draws = s.draws := rfl
@[simp] theorem State.setV_inputs (r : Reg) (b : Byte) : (s.setV r b).inputs = s.inputs := rfl
@[simp] theorem State.setV_fbUpdates (r : Reg) (b : Byte) : (s.setV r b).fbUpdates = s.fbUpdates := rfl
@[simp] theorem State.readByte_setV (r : Reg) (b : Byte) (a' : Nat) : (s.setV r b).readByte a' = s.readByte a' := rfl
@[simp] theorem State.pixel_setV (r : Reg) (b : Byte) (px : Fin 64) (py : Fin 32) : (s.setV r b).pixel px py = s.pixel px py := rfl

/-! ## setAllV -/

@[simp] theorem State.setAllV_v (w : Vector Byte 16) : (s.setAllV w).v = w := rfl
@[simp] theorem State.setAllV_i (w : Vector Byte 16) : (s.setAllV w).i = s.i := rfl
@[simp] theorem State.setAllV_pc (w : Vector Byte 16) : (s.setAllV w).pc = s.pc := rfl
@[simp] theorem State.setAllV_sp (w : Vector Byte 16) : (s.setAllV w).sp = s.sp := rfl
@[simp] theorem State.setAllV_stack (w : Vector Byte 16) : (s.setAllV w).stack = s.stack := rfl
@[simp] theorem State.setAllV_dt (w : Vector Byte 16) : (s.setAllV w).dt = s.dt := rfl
@[simp] theorem State.setAllV_st (w : Vector Byte 16) : (s.setAllV w).st = s.st := rfl
@[simp] theorem State.setAllV_fb (w : Vector Byte 16) : (s.setAllV w).fb = s.fb := rfl
@[simp] theorem State.setAllV_mem (w : Vector Byte 16) : (s.setAllV w).mem = s.mem := rfl
@[simp] theorem State.setAllV_status (w : Vector Byte 16) : (s.setAllV w).status = s.status := rfl
@[simp] theorem State.setAllV_waitX (w : Vector Byte 16) : (s.setAllV w).waitX = s.waitX := rfl
@[simp] theorem State.setAllV_faultCode (w : Vector Byte 16) : (s.setAllV w).faultCode = s.faultCode := rfl
@[simp] theorem State.setAllV_faultPc (w : Vector Byte 16) : (s.setAllV w).faultPc = s.faultPc := rfl
@[simp] theorem State.setAllV_faultOpcode (w : Vector Byte 16) : (s.setAllV w).faultOpcode = s.faultOpcode := rfl
@[simp] theorem State.setAllV_faultAddr (w : Vector Byte 16) : (s.setAllV w).faultAddr = s.faultAddr := rfl
@[simp] theorem State.setAllV_params (w : Vector Byte 16) : (s.setAllV w).params = s.params := rfl
@[simp] theorem State.setAllV_randByte (w : Vector Byte 16) : (s.setAllV w).randByte = s.randByte := rfl
@[simp] theorem State.setAllV_keyDown (w : Vector Byte 16) : (s.setAllV w).keyDown = s.keyDown := rfl
@[simp] theorem State.setAllV_draws (w : Vector Byte 16) : (s.setAllV w).draws = s.draws := rfl
@[simp] theorem State.setAllV_inputs (w : Vector Byte 16) : (s.setAllV w).inputs = s.inputs := rfl
@[simp] theorem State.setAllV_fbUpdates (w : Vector Byte 16) : (s.setAllV w).fbUpdates = s.fbUpdates := rfl
@[simp] theorem State.readByte_setAllV (w : Vector Byte 16) (a' : Nat) : (s.setAllV w).readByte a' = s.readByte a' := rfl
@[simp] theorem State.pixel_setAllV (w : Vector Byte 16) (px : Fin 64) (py : Fin 32) : (s.setAllV w).pixel px py = s.pixel px py := rfl

/-! ## setI -/

@[simp] theorem State.setI_v (w : Word) : (s.setI w).v = s.v := rfl
@[simp] theorem State.setI_i (w : Word) : (s.setI w).i = w := rfl
@[simp] theorem State.setI_pc (w : Word) : (s.setI w).pc = s.pc := rfl
@[simp] theorem State.setI_sp (w : Word) : (s.setI w).sp = s.sp := rfl
@[simp] theorem State.setI_stack (w : Word) : (s.setI w).stack = s.stack := rfl
@[simp] theorem State.setI_dt (w : Word) : (s.setI w).dt = s.dt := rfl
@[simp] theorem State.setI_st (w : Word) : (s.setI w).st = s.st := rfl
@[simp] theorem State.setI_fb (w : Word) : (s.setI w).fb = s.fb := rfl
@[simp] theorem State.setI_mem (w : Word) : (s.setI w).mem = s.mem := rfl
@[simp] theorem State.setI_status (w : Word) : (s.setI w).status = s.status := rfl
@[simp] theorem State.setI_waitX (w : Word) : (s.setI w).waitX = s.waitX := rfl
@[simp] theorem State.setI_faultCode (w : Word) : (s.setI w).faultCode = s.faultCode := rfl
@[simp] theorem State.setI_faultPc (w : Word) : (s.setI w).faultPc = s.faultPc := rfl
@[simp] theorem State.setI_faultOpcode (w : Word) : (s.setI w).faultOpcode = s.faultOpcode := rfl
@[simp] theorem State.setI_faultAddr (w : Word) : (s.setI w).faultAddr = s.faultAddr := rfl
@[simp] theorem State.setI_params (w : Word) : (s.setI w).params = s.params := rfl
@[simp] theorem State.setI_randByte (w : Word) : (s.setI w).randByte = s.randByte := rfl
@[simp] theorem State.setI_keyDown (w : Word) : (s.setI w).keyDown = s.keyDown := rfl
@[simp] theorem State.setI_draws (w : Word) : (s.setI w).draws = s.draws := rfl
@[simp] theorem State.setI_inputs (w : Word) : (s.setI w).inputs = s.inputs := rfl
@[simp] theorem State.setI_fbUpdates (w : Word) : (s.setI w).fbUpdates = s.fbUpdates := rfl
@[simp] theorem State.getV_setI (w : Word) (r' : Reg) : (s.setI w).getV r' = s.getV r' := rfl
@[simp] theorem State.readByte_setI (w : Word) (a' : Nat) : (s.setI w).readByte a' = s.readByte a' := rfl
@[simp] theorem State.pixel_setI (w : Word) (px : Fin 64) (py : Fin 32) : (s.setI w).pixel px py = s.pixel px py := rfl

/-! ## setPc -/

@[simp] theorem State.setPc_v (w : Word) : (s.setPc w).v = s.v := rfl
@[simp] theorem State.setPc_i (w : Word) : (s.setPc w).i = s.i := rfl
@[simp] theorem State.setPc_pc (w : Word) : (s.setPc w).pc = w := rfl
@[simp] theorem State.setPc_sp (w : Word) : (s.setPc w).sp = s.sp := rfl
@[simp] theorem State.setPc_stack (w : Word) : (s.setPc w).stack = s.stack := rfl
@[simp] theorem State.setPc_dt (w : Word) : (s.setPc w).dt = s.dt := rfl
@[simp] theorem State.setPc_st (w : Word) : (s.setPc w).st = s.st := rfl
@[simp] theorem State.setPc_fb (w : Word) : (s.setPc w).fb = s.fb := rfl
@[simp] theorem State.setPc_mem (w : Word) : (s.setPc w).mem = s.mem := rfl
@[simp] theorem State.setPc_status (w : Word) : (s.setPc w).status = s.status := rfl
@[simp] theorem State.setPc_waitX (w : Word) : (s.setPc w).waitX = s.waitX := rfl
@[simp] theorem State.setPc_faultCode (w : Word) : (s.setPc w).faultCode = s.faultCode := rfl
@[simp] theorem State.setPc_faultPc (w : Word) : (s.setPc w).faultPc = s.faultPc := rfl
@[simp] theorem State.setPc_faultOpcode (w : Word) : (s.setPc w).faultOpcode = s.faultOpcode := rfl
@[simp] theorem State.setPc_faultAddr (w : Word) : (s.setPc w).faultAddr = s.faultAddr := rfl
@[simp] theorem State.setPc_params (w : Word) : (s.setPc w).params = s.params := rfl
@[simp] theorem State.setPc_randByte (w : Word) : (s.setPc w).randByte = s.randByte := rfl
@[simp] theorem State.setPc_keyDown (w : Word) : (s.setPc w).keyDown = s.keyDown := rfl
@[simp] theorem State.setPc_draws (w : Word) : (s.setPc w).draws = s.draws := rfl
@[simp] theorem State.setPc_inputs (w : Word) : (s.setPc w).inputs = s.inputs := rfl
@[simp] theorem State.setPc_fbUpdates (w : Word) : (s.setPc w).fbUpdates = s.fbUpdates := rfl
@[simp] theorem State.getV_setPc (w : Word) (r' : Reg) : (s.setPc w).getV r' = s.getV r' := rfl
@[simp] theorem State.readByte_setPc (w : Word) (a' : Nat) : (s.setPc w).readByte a' = s.readByte a' := rfl
@[simp] theorem State.pixel_setPc (w : Word) (px : Fin 64) (py : Fin 32) : (s.setPc w).pixel px py = s.pixel px py := rfl

/-! ## push -/

@[simp] theorem State.push_v (w : Word) (h : s.sp.val < 16) : (s.push w h).v = s.v := rfl
@[simp] theorem State.push_i (w : Word) (h : s.sp.val < 16) : (s.push w h).i = s.i := rfl
@[simp] theorem State.push_pc (w : Word) (h : s.sp.val < 16) : (s.push w h).pc = s.pc := rfl
@[simp] theorem State.push_sp (w : Word) (h : s.sp.val < 16) : (s.push w h).sp = ⟨s.sp.val + 1, Nat.succ_lt_succ h⟩ := rfl
@[simp] theorem State.push_stack (w : Word) (h : s.sp.val < 16) : (s.push w h).stack = s.stack.set s.sp.val w h := rfl
@[simp] theorem State.push_dt (w : Word) (h : s.sp.val < 16) : (s.push w h).dt = s.dt := rfl
@[simp] theorem State.push_st (w : Word) (h : s.sp.val < 16) : (s.push w h).st = s.st := rfl
@[simp] theorem State.push_fb (w : Word) (h : s.sp.val < 16) : (s.push w h).fb = s.fb := rfl
@[simp] theorem State.push_mem (w : Word) (h : s.sp.val < 16) : (s.push w h).mem = s.mem := rfl
@[simp] theorem State.push_status (w : Word) (h : s.sp.val < 16) : (s.push w h).status = s.status := rfl
@[simp] theorem State.push_waitX (w : Word) (h : s.sp.val < 16) : (s.push w h).waitX = s.waitX := rfl
@[simp] theorem State.push_faultCode (w : Word) (h : s.sp.val < 16) : (s.push w h).faultCode = s.faultCode := rfl
@[simp] theorem State.push_faultPc (w : Word) (h : s.sp.val < 16) : (s.push w h).faultPc = s.faultPc := rfl
@[simp] theorem State.push_faultOpcode (w : Word) (h : s.sp.val < 16) : (s.push w h).faultOpcode = s.faultOpcode := rfl
@[simp] theorem State.push_faultAddr (w : Word) (h : s.sp.val < 16) : (s.push w h).faultAddr = s.faultAddr := rfl
@[simp] theorem State.push_params (w : Word) (h : s.sp.val < 16) : (s.push w h).params = s.params := rfl
@[simp] theorem State.push_randByte (w : Word) (h : s.sp.val < 16) : (s.push w h).randByte = s.randByte := rfl
@[simp] theorem State.push_keyDown (w : Word) (h : s.sp.val < 16) : (s.push w h).keyDown = s.keyDown := rfl
@[simp] theorem State.push_draws (w : Word) (h : s.sp.val < 16) : (s.push w h).draws = s.draws := rfl
@[simp] theorem State.push_inputs (w : Word) (h : s.sp.val < 16) : (s.push w h).inputs = s.inputs := rfl
@[simp] theorem State.push_fbUpdates (w : Word) (h : s.sp.val < 16) : (s.push w h).fbUpdates = s.fbUpdates := rfl
@[simp] theorem State.getV_push (w : Word) (h : s.sp.val < 16) (r' : Reg) : (s.push w h).getV r' = s.getV r' := rfl
@[simp] theorem State.readByte_push (w : Word) (h : s.sp.val < 16) (a' : Nat) : (s.push w h).readByte a' = s.readByte a' := rfl
@[simp] theorem State.pixel_push (w : Word) (h : s.sp.val < 16) (px : Fin 64) (py : Fin 32) : (s.push w h).pixel px py = s.pixel px py := rfl

/-! ## pop -/

@[simp] theorem State.pop_v : (s.pop).v = s.v := rfl
@[simp] theorem State.pop_i : (s.pop).i = s.i := rfl
@[simp] theorem State.pop_pc : (s.pop).pc = s.pc := rfl
@[simp] theorem State.pop_sp : (s.pop).sp = ⟨s.sp.val - 1, by omega⟩ := rfl
@[simp] theorem State.pop_stack : (s.pop).stack = s.stack := rfl
@[simp] theorem State.pop_dt : (s.pop).dt = s.dt := rfl
@[simp] theorem State.pop_st : (s.pop).st = s.st := rfl
@[simp] theorem State.pop_fb : (s.pop).fb = s.fb := rfl
@[simp] theorem State.pop_mem : (s.pop).mem = s.mem := rfl
@[simp] theorem State.pop_status : (s.pop).status = s.status := rfl
@[simp] theorem State.pop_waitX : (s.pop).waitX = s.waitX := rfl
@[simp] theorem State.pop_faultCode : (s.pop).faultCode = s.faultCode := rfl
@[simp] theorem State.pop_faultPc : (s.pop).faultPc = s.faultPc := rfl
@[simp] theorem State.pop_faultOpcode : (s.pop).faultOpcode = s.faultOpcode := rfl
@[simp] theorem State.pop_faultAddr : (s.pop).faultAddr = s.faultAddr := rfl
@[simp] theorem State.pop_params : (s.pop).params = s.params := rfl
@[simp] theorem State.pop_randByte : (s.pop).randByte = s.randByte := rfl
@[simp] theorem State.pop_keyDown : (s.pop).keyDown = s.keyDown := rfl
@[simp] theorem State.pop_draws : (s.pop).draws = s.draws := rfl
@[simp] theorem State.pop_inputs : (s.pop).inputs = s.inputs := rfl
@[simp] theorem State.pop_fbUpdates : (s.pop).fbUpdates = s.fbUpdates := rfl
@[simp] theorem State.getV_pop (r' : Reg) : (s.pop).getV r' = s.getV r' := rfl
@[simp] theorem State.readByte_pop (a' : Nat) : (s.pop).readByte a' = s.readByte a' := rfl
@[simp] theorem State.pixel_pop (px : Fin 64) (py : Fin 32) : (s.pop).pixel px py = s.pixel px py := rfl

/-! ## setDt -/

@[simp] theorem State.setDt_v (b : Byte) : (s.setDt b).v = s.v := rfl
@[simp] theorem State.setDt_i (b : Byte) : (s.setDt b).i = s.i := rfl
@[simp] theorem State.setDt_pc (b : Byte) : (s.setDt b).pc = s.pc := rfl
@[simp] theorem State.setDt_sp (b : Byte) : (s.setDt b).sp = s.sp := rfl
@[simp] theorem State.setDt_stack (b : Byte) : (s.setDt b).stack = s.stack := rfl
@[simp] theorem State.setDt_dt (b : Byte) : (s.setDt b).dt = b := rfl
@[simp] theorem State.setDt_st (b : Byte) : (s.setDt b).st = s.st := rfl
@[simp] theorem State.setDt_fb (b : Byte) : (s.setDt b).fb = s.fb := rfl
@[simp] theorem State.setDt_mem (b : Byte) : (s.setDt b).mem = s.mem := rfl
@[simp] theorem State.setDt_status (b : Byte) : (s.setDt b).status = s.status := rfl
@[simp] theorem State.setDt_waitX (b : Byte) : (s.setDt b).waitX = s.waitX := rfl
@[simp] theorem State.setDt_faultCode (b : Byte) : (s.setDt b).faultCode = s.faultCode := rfl
@[simp] theorem State.setDt_faultPc (b : Byte) : (s.setDt b).faultPc = s.faultPc := rfl
@[simp] theorem State.setDt_faultOpcode (b : Byte) : (s.setDt b).faultOpcode = s.faultOpcode := rfl
@[simp] theorem State.setDt_faultAddr (b : Byte) : (s.setDt b).faultAddr = s.faultAddr := rfl
@[simp] theorem State.setDt_params (b : Byte) : (s.setDt b).params = s.params := rfl
@[simp] theorem State.setDt_randByte (b : Byte) : (s.setDt b).randByte = s.randByte := rfl
@[simp] theorem State.setDt_keyDown (b : Byte) : (s.setDt b).keyDown = s.keyDown := rfl
@[simp] theorem State.setDt_draws (b : Byte) : (s.setDt b).draws = s.draws := rfl
@[simp] theorem State.setDt_inputs (b : Byte) : (s.setDt b).inputs = s.inputs := rfl
@[simp] theorem State.setDt_fbUpdates (b : Byte) : (s.setDt b).fbUpdates = s.fbUpdates := rfl
@[simp] theorem State.getV_setDt (b : Byte) (r' : Reg) : (s.setDt b).getV r' = s.getV r' := rfl
@[simp] theorem State.readByte_setDt (b : Byte) (a' : Nat) : (s.setDt b).readByte a' = s.readByte a' := rfl
@[simp] theorem State.pixel_setDt (b : Byte) (px : Fin 64) (py : Fin 32) : (s.setDt b).pixel px py = s.pixel px py := rfl

/-! ## setSt -/

@[simp] theorem State.setSt_v (b : Byte) : (s.setSt b).v = s.v := rfl
@[simp] theorem State.setSt_i (b : Byte) : (s.setSt b).i = s.i := rfl
@[simp] theorem State.setSt_pc (b : Byte) : (s.setSt b).pc = s.pc := rfl
@[simp] theorem State.setSt_sp (b : Byte) : (s.setSt b).sp = s.sp := rfl
@[simp] theorem State.setSt_stack (b : Byte) : (s.setSt b).stack = s.stack := rfl
@[simp] theorem State.setSt_dt (b : Byte) : (s.setSt b).dt = s.dt := rfl
@[simp] theorem State.setSt_st (b : Byte) : (s.setSt b).st = b := rfl
@[simp] theorem State.setSt_fb (b : Byte) : (s.setSt b).fb = s.fb := rfl
@[simp] theorem State.setSt_mem (b : Byte) : (s.setSt b).mem = s.mem := rfl
@[simp] theorem State.setSt_status (b : Byte) : (s.setSt b).status = s.status := rfl
@[simp] theorem State.setSt_waitX (b : Byte) : (s.setSt b).waitX = s.waitX := rfl
@[simp] theorem State.setSt_faultCode (b : Byte) : (s.setSt b).faultCode = s.faultCode := rfl
@[simp] theorem State.setSt_faultPc (b : Byte) : (s.setSt b).faultPc = s.faultPc := rfl
@[simp] theorem State.setSt_faultOpcode (b : Byte) : (s.setSt b).faultOpcode = s.faultOpcode := rfl
@[simp] theorem State.setSt_faultAddr (b : Byte) : (s.setSt b).faultAddr = s.faultAddr := rfl
@[simp] theorem State.setSt_params (b : Byte) : (s.setSt b).params = s.params := rfl
@[simp] theorem State.setSt_randByte (b : Byte) : (s.setSt b).randByte = s.randByte := rfl
@[simp] theorem State.setSt_keyDown (b : Byte) : (s.setSt b).keyDown = s.keyDown := rfl
@[simp] theorem State.setSt_draws (b : Byte) : (s.setSt b).draws = s.draws := rfl
@[simp] theorem State.setSt_inputs (b : Byte) : (s.setSt b).inputs = s.inputs := rfl
@[simp] theorem State.setSt_fbUpdates (b : Byte) : (s.setSt b).fbUpdates = s.fbUpdates := rfl
@[simp] theorem State.getV_setSt (b : Byte) (r' : Reg) : (s.setSt b).getV r' = s.getV r' := rfl
@[simp] theorem State.readByte_setSt (b : Byte) (a' : Nat) : (s.setSt b).readByte a' = s.readByte a' := rfl
@[simp] theorem State.pixel_setSt (b : Byte) (px : Fin 64) (py : Fin 32) : (s.setSt b).pixel px py = s.pixel px py := rfl

/-! ## storeBytes -/

@[simp] theorem State.storeBytes_v (a : Nat) (bs : List Byte) : (s.storeBytes a bs).v = s.v := rfl
@[simp] theorem State.storeBytes_i (a : Nat) (bs : List Byte) : (s.storeBytes a bs).i = s.i := rfl
@[simp] theorem State.storeBytes_pc (a : Nat) (bs : List Byte) : (s.storeBytes a bs).pc = s.pc := rfl
@[simp] theorem State.storeBytes_sp (a : Nat) (bs : List Byte) : (s.storeBytes a bs).sp = s.sp := rfl
@[simp] theorem State.storeBytes_stack (a : Nat) (bs : List Byte) : (s.storeBytes a bs).stack = s.stack := rfl
@[simp] theorem State.storeBytes_dt (a : Nat) (bs : List Byte) : (s.storeBytes a bs).dt = s.dt := rfl
@[simp] theorem State.storeBytes_st (a : Nat) (bs : List Byte) : (s.storeBytes a bs).st = s.st := rfl
@[simp] theorem State.storeBytes_fb (a : Nat) (bs : List Byte) : (s.storeBytes a bs).fb = s.fb := rfl
@[simp] theorem State.storeBytes_mem (a : Nat) (bs : List Byte) : (s.storeBytes a bs).mem = Memory.writeAll s.params.font s.mem a bs := rfl
@[simp] theorem State.storeBytes_status (a : Nat) (bs : List Byte) : (s.storeBytes a bs).status = s.status := rfl
@[simp] theorem State.storeBytes_waitX (a : Nat) (bs : List Byte) : (s.storeBytes a bs).waitX = s.waitX := rfl
@[simp] theorem State.storeBytes_faultCode (a : Nat) (bs : List Byte) : (s.storeBytes a bs).faultCode = s.faultCode := rfl
@[simp] theorem State.storeBytes_faultPc (a : Nat) (bs : List Byte) : (s.storeBytes a bs).faultPc = s.faultPc := rfl
@[simp] theorem State.storeBytes_faultOpcode (a : Nat) (bs : List Byte) : (s.storeBytes a bs).faultOpcode = s.faultOpcode := rfl
@[simp] theorem State.storeBytes_faultAddr (a : Nat) (bs : List Byte) : (s.storeBytes a bs).faultAddr = s.faultAddr := rfl
@[simp] theorem State.storeBytes_params (a : Nat) (bs : List Byte) : (s.storeBytes a bs).params = s.params := rfl
@[simp] theorem State.storeBytes_randByte (a : Nat) (bs : List Byte) : (s.storeBytes a bs).randByte = s.randByte := rfl
@[simp] theorem State.storeBytes_keyDown (a : Nat) (bs : List Byte) : (s.storeBytes a bs).keyDown = s.keyDown := rfl
@[simp] theorem State.storeBytes_draws (a : Nat) (bs : List Byte) : (s.storeBytes a bs).draws = s.draws := rfl
@[simp] theorem State.storeBytes_inputs (a : Nat) (bs : List Byte) : (s.storeBytes a bs).inputs = s.inputs := rfl
@[simp] theorem State.storeBytes_fbUpdates (a : Nat) (bs : List Byte) : (s.storeBytes a bs).fbUpdates = s.fbUpdates := rfl
@[simp] theorem State.getV_storeBytes (a : Nat) (bs : List Byte) (r' : Reg) : (s.storeBytes a bs).getV r' = s.getV r' := rfl
@[simp] theorem State.pixel_storeBytes (a : Nat) (bs : List Byte) (px : Fin 64) (py : Fin 32) : (s.storeBytes a bs).pixel px py = s.pixel px py := rfl

/-! ## showFrame -/

@[simp] theorem State.showFrame_v (f : Framebuffer) : (s.showFrame f).v = s.v := rfl
@[simp] theorem State.showFrame_i (f : Framebuffer) : (s.showFrame f).i = s.i := rfl
@[simp] theorem State.showFrame_pc (f : Framebuffer) : (s.showFrame f).pc = s.pc := rfl
@[simp] theorem State.showFrame_sp (f : Framebuffer) : (s.showFrame f).sp = s.sp := rfl
@[simp] theorem State.showFrame_stack (f : Framebuffer) : (s.showFrame f).stack = s.stack := rfl
@[simp] theorem State.showFrame_dt (f : Framebuffer) : (s.showFrame f).dt = s.dt := rfl
@[simp] theorem State.showFrame_st (f : Framebuffer) : (s.showFrame f).st = s.st := rfl
@[simp] theorem State.showFrame_fb (f : Framebuffer) : (s.showFrame f).fb = f := rfl
@[simp] theorem State.showFrame_mem (f : Framebuffer) : (s.showFrame f).mem = s.mem := rfl
@[simp] theorem State.showFrame_status (f : Framebuffer) : (s.showFrame f).status = s.status := rfl
@[simp] theorem State.showFrame_waitX (f : Framebuffer) : (s.showFrame f).waitX = s.waitX := rfl
@[simp] theorem State.showFrame_faultCode (f : Framebuffer) : (s.showFrame f).faultCode = s.faultCode := rfl
@[simp] theorem State.showFrame_faultPc (f : Framebuffer) : (s.showFrame f).faultPc = s.faultPc := rfl
@[simp] theorem State.showFrame_faultOpcode (f : Framebuffer) : (s.showFrame f).faultOpcode = s.faultOpcode := rfl
@[simp] theorem State.showFrame_faultAddr (f : Framebuffer) : (s.showFrame f).faultAddr = s.faultAddr := rfl
@[simp] theorem State.showFrame_params (f : Framebuffer) : (s.showFrame f).params = s.params := rfl
@[simp] theorem State.showFrame_randByte (f : Framebuffer) : (s.showFrame f).randByte = s.randByte := rfl
@[simp] theorem State.showFrame_keyDown (f : Framebuffer) : (s.showFrame f).keyDown = s.keyDown := rfl
@[simp] theorem State.showFrame_draws (f : Framebuffer) : (s.showFrame f).draws = s.draws := rfl
@[simp] theorem State.showFrame_inputs (f : Framebuffer) : (s.showFrame f).inputs = s.inputs := rfl
@[simp] theorem State.showFrame_fbUpdates (f : Framebuffer) : (s.showFrame f).fbUpdates = s.fbUpdates ++ [f] := rfl
@[simp] theorem State.getV_showFrame (f : Framebuffer) (r' : Reg) : (s.showFrame f).getV r' = s.getV r' := rfl
@[simp] theorem State.readByte_showFrame (f : Framebuffer) (a' : Nat) : (s.showFrame f).readByte a' = s.readByte a' := rfl

/-! ## raise -/

@[simp] theorem State.raise_v (c : FaultCode) (o a : Word) : (s.raise c o a).v = s.v := rfl
@[simp] theorem State.raise_i (c : FaultCode) (o a : Word) : (s.raise c o a).i = s.i := rfl
@[simp] theorem State.raise_pc (c : FaultCode) (o a : Word) : (s.raise c o a).pc = s.pc := rfl
@[simp] theorem State.raise_sp (c : FaultCode) (o a : Word) : (s.raise c o a).sp = s.sp := rfl
@[simp] theorem State.raise_stack (c : FaultCode) (o a : Word) : (s.raise c o a).stack = s.stack := rfl
@[simp] theorem State.raise_dt (c : FaultCode) (o a : Word) : (s.raise c o a).dt = s.dt := rfl
@[simp] theorem State.raise_st (c : FaultCode) (o a : Word) : (s.raise c o a).st = s.st := rfl
@[simp] theorem State.raise_fb (c : FaultCode) (o a : Word) : (s.raise c o a).fb = s.fb := rfl
@[simp] theorem State.raise_mem (c : FaultCode) (o a : Word) : (s.raise c o a).mem = s.mem := rfl
@[simp] theorem State.raise_status (c : FaultCode) (o a : Word) : (s.raise c o a).status = .faulted := rfl
@[simp] theorem State.raise_waitX (c : FaultCode) (o a : Word) : (s.raise c o a).waitX = s.waitX := rfl
@[simp] theorem State.raise_faultCode (c : FaultCode) (o a : Word) : (s.raise c o a).faultCode = c := rfl
@[simp] theorem State.raise_faultPc (c : FaultCode) (o a : Word) : (s.raise c o a).faultPc = s.pc := rfl
@[simp] theorem State.raise_faultOpcode (c : FaultCode) (o a : Word) : (s.raise c o a).faultOpcode = o := rfl
@[simp] theorem State.raise_faultAddr (c : FaultCode) (o a : Word) : (s.raise c o a).faultAddr = a := rfl
@[simp] theorem State.raise_params (c : FaultCode) (o a : Word) : (s.raise c o a).params = s.params := rfl
@[simp] theorem State.raise_randByte (c : FaultCode) (o a : Word) : (s.raise c o a).randByte = s.randByte := rfl
@[simp] theorem State.raise_keyDown (c : FaultCode) (o a : Word) : (s.raise c o a).keyDown = s.keyDown := rfl
@[simp] theorem State.raise_draws (c : FaultCode) (o a : Word) : (s.raise c o a).draws = s.draws := rfl
@[simp] theorem State.raise_inputs (c : FaultCode) (o a : Word) : (s.raise c o a).inputs = s.inputs := rfl
@[simp] theorem State.raise_fbUpdates (c : FaultCode) (o a : Word) : (s.raise c o a).fbUpdates = s.fbUpdates := rfl
@[simp] theorem State.getV_raise (c : FaultCode) (o a : Word) (r' : Reg) : (s.raise c o a).getV r' = s.getV r' := rfl
@[simp] theorem State.readByte_raise (c : FaultCode) (o a : Word) (a' : Nat) : (s.raise c o a).readByte a' = s.readByte a' := rfl
@[simp] theorem State.pixel_raise (c : FaultCode) (o a : Word) (px : Fin 64) (py : Fin 32) : (s.raise c o a).pixel px py = s.pixel px py := rfl

/-! ## enterWait -/

@[simp] theorem State.enterWait_v (x : Reg) : (s.enterWait x).v = s.v := rfl
@[simp] theorem State.enterWait_i (x : Reg) : (s.enterWait x).i = s.i := rfl
@[simp] theorem State.enterWait_pc (x : Reg) : (s.enterWait x).pc = s.pc := rfl
@[simp] theorem State.enterWait_sp (x : Reg) : (s.enterWait x).sp = s.sp := rfl
@[simp] theorem State.enterWait_stack (x : Reg) : (s.enterWait x).stack = s.stack := rfl
@[simp] theorem State.enterWait_dt (x : Reg) : (s.enterWait x).dt = s.dt := rfl
@[simp] theorem State.enterWait_st (x : Reg) : (s.enterWait x).st = s.st := rfl
@[simp] theorem State.enterWait_fb (x : Reg) : (s.enterWait x).fb = s.fb := rfl
@[simp] theorem State.enterWait_mem (x : Reg) : (s.enterWait x).mem = s.mem := rfl
@[simp] theorem State.enterWait_status (x : Reg) : (s.enterWait x).status = .waitKey := rfl
@[simp] theorem State.enterWait_waitX (x : Reg) : (s.enterWait x).waitX = x := rfl
@[simp] theorem State.enterWait_faultCode (x : Reg) : (s.enterWait x).faultCode = s.faultCode := rfl
@[simp] theorem State.enterWait_faultPc (x : Reg) : (s.enterWait x).faultPc = s.faultPc := rfl
@[simp] theorem State.enterWait_faultOpcode (x : Reg) : (s.enterWait x).faultOpcode = s.faultOpcode := rfl
@[simp] theorem State.enterWait_faultAddr (x : Reg) : (s.enterWait x).faultAddr = s.faultAddr := rfl
@[simp] theorem State.enterWait_params (x : Reg) : (s.enterWait x).params = s.params := rfl
@[simp] theorem State.enterWait_randByte (x : Reg) : (s.enterWait x).randByte = s.randByte := rfl
@[simp] theorem State.enterWait_keyDown (x : Reg) : (s.enterWait x).keyDown = s.keyDown := rfl
@[simp] theorem State.enterWait_draws (x : Reg) : (s.enterWait x).draws = s.draws := rfl
@[simp] theorem State.enterWait_inputs (x : Reg) : (s.enterWait x).inputs = s.inputs := rfl
@[simp] theorem State.enterWait_fbUpdates (x : Reg) : (s.enterWait x).fbUpdates = s.fbUpdates := rfl
@[simp] theorem State.getV_enterWait (x : Reg) (r' : Reg) : (s.enterWait x).getV r' = s.getV r' := rfl
@[simp] theorem State.readByte_enterWait (x : Reg) (a' : Nat) : (s.enterWait x).readByte a' = s.readByte a' := rfl
@[simp] theorem State.pixel_enterWait (x : Reg) (px : Fin 64) (py : Fin 32) : (s.enterWait x).pixel px py = s.pixel px py := rfl

/-! ## setStatus -/

@[simp] theorem State.setStatus_v (c : Status) : (s.setStatus c).v = s.v := rfl
@[simp] theorem State.setStatus_i (c : Status) : (s.setStatus c).i = s.i := rfl
@[simp] theorem State.setStatus_pc (c : Status) : (s.setStatus c).pc = s.pc := rfl
@[simp] theorem State.setStatus_sp (c : Status) : (s.setStatus c).sp = s.sp := rfl
@[simp] theorem State.setStatus_stack (c : Status) : (s.setStatus c).stack = s.stack := rfl
@[simp] theorem State.setStatus_dt (c : Status) : (s.setStatus c).dt = s.dt := rfl
@[simp] theorem State.setStatus_st (c : Status) : (s.setStatus c).st = s.st := rfl
@[simp] theorem State.setStatus_fb (c : Status) : (s.setStatus c).fb = s.fb := rfl
@[simp] theorem State.setStatus_mem (c : Status) : (s.setStatus c).mem = s.mem := rfl
@[simp] theorem State.setStatus_status (c : Status) : (s.setStatus c).status = c := rfl
@[simp] theorem State.setStatus_waitX (c : Status) : (s.setStatus c).waitX = s.waitX := rfl
@[simp] theorem State.setStatus_faultCode (c : Status) : (s.setStatus c).faultCode = s.faultCode := rfl
@[simp] theorem State.setStatus_faultPc (c : Status) : (s.setStatus c).faultPc = s.faultPc := rfl
@[simp] theorem State.setStatus_faultOpcode (c : Status) : (s.setStatus c).faultOpcode = s.faultOpcode := rfl
@[simp] theorem State.setStatus_faultAddr (c : Status) : (s.setStatus c).faultAddr = s.faultAddr := rfl
@[simp] theorem State.setStatus_params (c : Status) : (s.setStatus c).params = s.params := rfl
@[simp] theorem State.setStatus_randByte (c : Status) : (s.setStatus c).randByte = s.randByte := rfl
@[simp] theorem State.setStatus_keyDown (c : Status) : (s.setStatus c).keyDown = s.keyDown := rfl
@[simp] theorem State.setStatus_draws (c : Status) : (s.setStatus c).draws = s.draws := rfl
@[simp] theorem State.setStatus_inputs (c : Status) : (s.setStatus c).inputs = s.inputs := rfl
@[simp] theorem State.setStatus_fbUpdates (c : Status) : (s.setStatus c).fbUpdates = s.fbUpdates := rfl
@[simp] theorem State.getV_setStatus (c : Status) (r' : Reg) : (s.setStatus c).getV r' = s.getV r' := rfl
@[simp] theorem State.readByte_setStatus (c : Status) (a' : Nat) : (s.setStatus c).readByte a' = s.readByte a' := rfl
@[simp] theorem State.pixel_setStatus (c : Status) (px : Fin 64) (py : Fin 32) : (s.setStatus c).pixel px py = s.pixel px py := rfl

/-! ## present -/

@[simp] theorem State.present_v (r : Byte) (kd : Word) : (s.present r kd).v = s.v := rfl
@[simp] theorem State.present_i (r : Byte) (kd : Word) : (s.present r kd).i = s.i := rfl
@[simp] theorem State.present_pc (r : Byte) (kd : Word) : (s.present r kd).pc = s.pc := rfl
@[simp] theorem State.present_sp (r : Byte) (kd : Word) : (s.present r kd).sp = s.sp := rfl
@[simp] theorem State.present_stack (r : Byte) (kd : Word) : (s.present r kd).stack = s.stack := rfl
@[simp] theorem State.present_dt (r : Byte) (kd : Word) : (s.present r kd).dt = s.dt := rfl
@[simp] theorem State.present_st (r : Byte) (kd : Word) : (s.present r kd).st = s.st := rfl
@[simp] theorem State.present_fb (r : Byte) (kd : Word) : (s.present r kd).fb = s.fb := rfl
@[simp] theorem State.present_mem (r : Byte) (kd : Word) : (s.present r kd).mem = s.mem := rfl
@[simp] theorem State.present_status (r : Byte) (kd : Word) : (s.present r kd).status = s.status := rfl
@[simp] theorem State.present_waitX (r : Byte) (kd : Word) : (s.present r kd).waitX = s.waitX := rfl
@[simp] theorem State.present_faultCode (r : Byte) (kd : Word) : (s.present r kd).faultCode = s.faultCode := rfl
@[simp] theorem State.present_faultPc (r : Byte) (kd : Word) : (s.present r kd).faultPc = s.faultPc := rfl
@[simp] theorem State.present_faultOpcode (r : Byte) (kd : Word) : (s.present r kd).faultOpcode = s.faultOpcode := rfl
@[simp] theorem State.present_faultAddr (r : Byte) (kd : Word) : (s.present r kd).faultAddr = s.faultAddr := rfl
@[simp] theorem State.present_params (r : Byte) (kd : Word) : (s.present r kd).params = s.params := rfl
@[simp] theorem State.present_randByte (r : Byte) (kd : Word) : (s.present r kd).randByte = r := rfl
@[simp] theorem State.present_keyDown (r : Byte) (kd : Word) : (s.present r kd).keyDown = kd := rfl
@[simp] theorem State.present_draws (r : Byte) (kd : Word) : (s.present r kd).draws = s.draws := rfl
@[simp] theorem State.present_inputs (r : Byte) (kd : Word) : (s.present r kd).inputs = s.inputs := rfl
@[simp] theorem State.present_fbUpdates (r : Byte) (kd : Word) : (s.present r kd).fbUpdates = s.fbUpdates := rfl
@[simp] theorem State.getV_present (r : Byte) (kd : Word) (r' : Reg) : (s.present r kd).getV r' = s.getV r' := rfl
@[simp] theorem State.readByte_present (r : Byte) (kd : Word) (a' : Nat) : (s.present r kd).readByte a' = s.readByte a' := rfl
@[simp] theorem State.pixel_present (r : Byte) (kd : Word) (px : Fin 64) (py : Fin 32) : (s.present r kd).pixel px py = s.pixel px py := rfl

/-! ## drawFree -/

@[simp] theorem State.drawFree_v : (s.drawFree).v = s.v := rfl
@[simp] theorem State.drawFree_i : (s.drawFree).i = s.i := rfl
@[simp] theorem State.drawFree_pc : (s.drawFree).pc = s.pc := rfl
@[simp] theorem State.drawFree_sp : (s.drawFree).sp = s.sp := rfl
@[simp] theorem State.drawFree_stack : (s.drawFree).stack = s.stack := rfl
@[simp] theorem State.drawFree_dt : (s.drawFree).dt = s.dt := rfl
@[simp] theorem State.drawFree_st : (s.drawFree).st = s.st := rfl
@[simp] theorem State.drawFree_fb : (s.drawFree).fb = s.fb := rfl
@[simp] theorem State.drawFree_mem : (s.drawFree).mem = s.mem := rfl
@[simp] theorem State.drawFree_status : (s.drawFree).status = s.status := rfl
@[simp] theorem State.drawFree_waitX : (s.drawFree).waitX = s.waitX := rfl
@[simp] theorem State.drawFree_faultCode : (s.drawFree).faultCode = s.faultCode := rfl
@[simp] theorem State.drawFree_faultPc : (s.drawFree).faultPc = s.faultPc := rfl
@[simp] theorem State.drawFree_faultOpcode : (s.drawFree).faultOpcode = s.faultOpcode := rfl
@[simp] theorem State.drawFree_faultAddr : (s.drawFree).faultAddr = s.faultAddr := rfl
@[simp] theorem State.drawFree_params : (s.drawFree).params = s.params := rfl
@[simp] theorem State.drawFree_randByte : (s.drawFree).randByte = Config.freeRandByte s.draws := rfl
@[simp] theorem State.drawFree_keyDown : (s.drawFree).keyDown = Config.freeKeyDown s.draws := rfl
@[simp] theorem State.drawFree_draws : (s.drawFree).draws = s.draws + 1 := rfl
@[simp] theorem State.drawFree_inputs : (s.drawFree).inputs = s.inputs := rfl
@[simp] theorem State.drawFree_fbUpdates : (s.drawFree).fbUpdates = s.fbUpdates := rfl
@[simp] theorem State.getV_drawFree (r' : Reg) : (s.drawFree).getV r' = s.getV r' := rfl
@[simp] theorem State.readByte_drawFree (a' : Nat) : (s.drawFree).readByte a' = s.readByte a' := rfl
@[simp] theorem State.pixel_drawFree (px : Fin 64) (py : Fin 32) : (s.drawFree).pixel px py = s.pixel px py := rfl

/-! ## setInputs -/

@[simp] theorem State.setInputs_v (es : List Event) : (s.setInputs es).v = s.v := rfl
@[simp] theorem State.setInputs_i (es : List Event) : (s.setInputs es).i = s.i := rfl
@[simp] theorem State.setInputs_pc (es : List Event) : (s.setInputs es).pc = s.pc := rfl
@[simp] theorem State.setInputs_sp (es : List Event) : (s.setInputs es).sp = s.sp := rfl
@[simp] theorem State.setInputs_stack (es : List Event) : (s.setInputs es).stack = s.stack := rfl
@[simp] theorem State.setInputs_dt (es : List Event) : (s.setInputs es).dt = s.dt := rfl
@[simp] theorem State.setInputs_st (es : List Event) : (s.setInputs es).st = s.st := rfl
@[simp] theorem State.setInputs_fb (es : List Event) : (s.setInputs es).fb = s.fb := rfl
@[simp] theorem State.setInputs_mem (es : List Event) : (s.setInputs es).mem = s.mem := rfl
@[simp] theorem State.setInputs_status (es : List Event) : (s.setInputs es).status = s.status := rfl
@[simp] theorem State.setInputs_waitX (es : List Event) : (s.setInputs es).waitX = s.waitX := rfl
@[simp] theorem State.setInputs_faultCode (es : List Event) : (s.setInputs es).faultCode = s.faultCode := rfl
@[simp] theorem State.setInputs_faultPc (es : List Event) : (s.setInputs es).faultPc = s.faultPc := rfl
@[simp] theorem State.setInputs_faultOpcode (es : List Event) : (s.setInputs es).faultOpcode = s.faultOpcode := rfl
@[simp] theorem State.setInputs_faultAddr (es : List Event) : (s.setInputs es).faultAddr = s.faultAddr := rfl
@[simp] theorem State.setInputs_params (es : List Event) : (s.setInputs es).params = s.params := rfl
@[simp] theorem State.setInputs_randByte (es : List Event) : (s.setInputs es).randByte = s.randByte := rfl
@[simp] theorem State.setInputs_keyDown (es : List Event) : (s.setInputs es).keyDown = s.keyDown := rfl
@[simp] theorem State.setInputs_draws (es : List Event) : (s.setInputs es).draws = s.draws := rfl
@[simp] theorem State.setInputs_inputs (es : List Event) : (s.setInputs es).inputs = es := rfl
@[simp] theorem State.setInputs_fbUpdates (es : List Event) : (s.setInputs es).fbUpdates = s.fbUpdates := rfl
@[simp] theorem State.getV_setInputs (es : List Event) (r' : Reg) : (s.setInputs es).getV r' = s.getV r' := rfl
@[simp] theorem State.readByte_setInputs (es : List Event) (a' : Nat) : (s.setInputs es).readByte a' = s.readByte a' := rfl
@[simp] theorem State.pixel_setInputs (es : List Event) (px : Fin 64) (py : Fin 32) : (s.setInputs es).pixel px py = s.pixel px py := rfl

/-! ## The updates that are a write of `pc` -/

@[simp] theorem State.advance_eq : s.advance = s.setPc (s.pc + 2) := rfl
@[simp] theorem State.skipIf_eq (c : Bool) : s.skipIf c = s.setPc (if c then s.pc + 4 else s.pc + 2) := rfl

end Sys2Proof.Machine
end

