-- ==== Sys2Proof/Laws/Memory.lean ====
section
/-! SUPPORT. Laws/Memory.lean: reading after writing, and the canonical form, for each memory operation. The reading laws need
no canonical form; the canonical form is kept by every operation below 0x1000. -/

namespace Sys2Proof.Machine

variable {font : Font} {m : Memory} {a b : Nat} {v : Byte}

/-! ## Reading -/

theorem Memory.read_cons (c : Host.Cell) :
    Memory.read font (c :: m) a = if c.1 = a then c.2 else Memory.read font m a := rfl

theorem Memory.erase_cons (c : Host.Cell) :
    Memory.erase b (c :: m) = if c.1 = b then Memory.erase b m else c :: Memory.erase b m := by
  by_cases h : c.1 = b <;> simp [Memory.erase, h]

theorem Memory.read_erase :
    Memory.read font (Memory.erase b m) a = if a = b then Memory.background font a else Memory.read font m a := by
  induction m with
  | nil => simp [Memory.erase, Memory.read]
  | cons c rest ih =>
    rw [Memory.erase_cons, Memory.read_cons]
    by_cases hc : c.1 = b
    · rw [if_pos hc, ih, hc]
      by_cases hab : a = b
      · rw [if_pos hab, if_pos hab]
      · rw [if_neg hab, if_neg hab, if_neg (Ne.symm hab)]
    · rw [if_neg hc, Memory.read_cons, ih]
      by_cases hab : a = b
      · rw [if_pos hab, if_pos hab, if_neg (hab ▸ hc)]
      · rw [if_neg hab, if_neg hab]

theorem Memory.read_insert (absent : ∀ c ∈ m, c.1 ≠ b) :
    Memory.read font (Memory.insert b v m) a = if a = b then v else Memory.read font m a := by
  induction m with
  | nil => simp [Memory.insert, Memory.read, eq_comm]
  | cons c rest ih =>
    have hc : c.1 ≠ b := absent c (List.mem_cons_self ..)
    have ih' := ih (fun d hd => absent d (List.mem_cons_of_mem _ hd))
    unfold Memory.insert
    split
    · simp [Memory.read_cons, eq_comm]
    · rw [Memory.read_cons, ih', Memory.read_cons]
      by_cases hab : a = b
      · rw [if_neg (hab ▸ hc), if_pos hab, if_pos hab]
      · rw [if_neg hab, if_neg hab]

theorem Memory.mem_erase {c : Host.Cell} : c ∈ Memory.erase b m ↔ c ∈ m ∧ c.1 ≠ b := by
  simp [Memory.erase]

/-- A read after a write: the value at the address written, every other address as before. -/
theorem Memory.read_write :
    Memory.read font (Memory.write font m b v) a = if a = b then v else Memory.read font m a := by
  unfold Memory.write
  split
  · rename_i hv
    rw [Memory.read_erase]
    by_cases hab : a = b
    · rw [if_pos hab, if_pos hab, hv, hab]
    · rw [if_neg hab, if_neg hab]
  · rw [Memory.read_insert (fun c hc => (Memory.mem_erase.mp hc).2), Memory.read_erase]
    by_cases hab : a = b
    · rw [if_pos hab, if_pos hab]
    · rw [if_neg hab, if_neg hab, if_neg hab]

theorem Memory.read_writeAll_outside (bs : List Byte) (m : Memory) (b : Nat) (outside : a < b ∨ b + bs.length ≤ a) :
    Memory.read font (Memory.writeAll font m b bs) a = Memory.read font m a := by
  induction bs generalizing m b with
  | nil => rfl
  | cons x xs ih =>
    rw [List.length_cons] at outside
    rw [Memory.writeAll, ih _ _ (by omega), Memory.read_write, if_neg (by omega)]

theorem Memory.read_writeAll_inside (bs : List Byte) (m : Memory) (b k : Nat) (inside : k < bs.length) :
    Memory.read font (Memory.writeAll font m b bs) (b + k) = bs[k] := by
  induction bs generalizing m b k with
  | nil => exact absurd inside (Nat.not_lt_zero _)
  | cons x xs ih =>
    cases k with
    | zero => rw [Memory.writeAll, Memory.read_writeAll_outside _ _ _ (by omega), Memory.read_write, if_pos (by omega)]; rfl
    | succ k =>
      rw [List.length_cons] at inside
      rw [Memory.writeAll, show b + (k + 1) = b + 1 + k by omega, ih _ _ k (by omega)]; rfl

theorem State.readByte_storeBytes_outside (s : State) (b : Nat) (bs : List Byte) (a : Nat)
    (outside : a < b ∨ b + bs.length ≤ a) : (s.storeBytes b bs).readByte a = s.readByte a :=
  Memory.read_writeAll_outside bs s.mem b outside

theorem State.readByte_storeBytes_inside (s : State) (b : Nat) (bs : List Byte) (k : Nat) (inside : k < bs.length) :
    (s.storeBytes b bs).readByte (b + k) = bs[k] :=
  Memory.read_writeAll_inside bs s.mem b k inside

/-- An address past the end of memory is in no entry of the canonical form and reads as 0; the primitives are not applied
there (R63). -/
theorem Memory.read_above (wf : Memory.wf font m) (above : 0x1000 ≤ a) : Memory.read font m a = 0 := by
  induction m with
  | nil => rw [Memory.read, Memory.background, dif_neg (by omega)]
  | cons c rest ih =>
    have hc := (wf.2 c (List.mem_cons_self ..)).1
    rw [Memory.read_cons, if_neg (by omega)]
    exact ih ⟨wf.1.of_cons, fun d hd => wf.2 d (List.mem_cons_of_mem _ hd)⟩

/-! ## The canonical form -/

theorem Memory.wf_nil : Memory.wf font [] := ⟨List.Pairwise.nil, fun _ h => absurd h List.not_mem_nil⟩

theorem State.reset_memWf : Memory.wf State.reset.params.font State.reset.mem := Memory.wf_nil

theorem Memory.wf_erase (wf : Memory.wf font m) : Memory.wf font (Memory.erase b m) :=
  ⟨wf.1.filter _, fun c hc => wf.2 c (Memory.mem_erase.mp hc).1⟩

theorem Memory.mem_insert {c : Host.Cell} (h : c ∈ Memory.insert b v m) : c = (b, v) ∨ c ∈ m := by
  induction m with
  | nil => simpa [Memory.insert] using h
  | cons d rest ih =>
    unfold Memory.insert at h
    split at h
    · simpa using h
    · rcases List.mem_cons.mp h with h | h
      · exact .inr (h ▸ List.mem_cons_self ..)
      · exact (ih h).imp_right (List.mem_cons_of_mem _)

theorem Memory.pairwise_insert (rising : m.Pairwise (fun c d => c.1 < d.1)) (absent : ∀ c ∈ m, c.1 ≠ b) :
    (Memory.insert b v m).Pairwise (fun c d => c.1 < d.1) := by
  induction m with
  | nil => simp [Memory.insert]
  | cons d rest ih =>
    have hd := List.pairwise_cons.mp rising
    have hne : d.1 ≠ b := absent d (List.mem_cons_self ..)
    unfold Memory.insert
    split
    · rename_i hlt
      refine List.pairwise_cons.mpr ⟨fun e he => ?_, rising⟩
      rcases List.mem_cons.mp he with rfl | he
      · exact hlt
      · exact Nat.lt_trans hlt (hd.1 e he)
    · rename_i hlt
      have hlt' : ¬ b < d.1 := hlt
      refine List.pairwise_cons.mpr ⟨fun e he => ?_, ih hd.2 (fun c hc => absent c (List.mem_cons_of_mem _ hc))⟩
      rcases Memory.mem_insert he with rfl | he
      · show d.1 < b
        omega
      · exact hd.1 e he

theorem Memory.wf_write (wf : Memory.wf font m) (below : b < 0x1000) : Memory.wf font (Memory.write font m b v) := by
  unfold Memory.write
  split
  · exact Memory.wf_erase wf
  · rename_i hv
    have he : Memory.wf font (Memory.erase b m) := Memory.wf_erase wf
    refine ⟨Memory.pairwise_insert he.1 (fun c hc => (Memory.mem_erase.mp hc).2), fun c hc => ?_⟩
    rcases Memory.mem_insert hc with rfl | hc
    · exact ⟨below, hv⟩
    · exact he.2 c hc

theorem Memory.wf_writeAll (bs : List Byte) (m : Memory) (b : Nat) (wf : Memory.wf font m)
    (below : bs = [] ∨ b + bs.length ≤ 0x1000) : Memory.wf font (Memory.writeAll font m b bs) := by
  induction bs generalizing m b with
  | nil => exact wf
  | cons x xs ih =>
    have hle : b + (xs.length + 1) ≤ 0x1000 := by simpa using below
    rw [Memory.writeAll]
    exact ih _ _ (Memory.wf_write wf (by omega)) (.inr (by omega))

theorem State.memWf_storeBytes (s : State) (b : Nat) (bs : List Byte) (wf : Memory.wf s.params.font s.mem)
    (below : b + bs.length ≤ 0x1000) :
    Memory.wf (s.storeBytes b bs).params.font (s.storeBytes b bs).mem :=
  Memory.wf_writeAll bs s.mem b wf (.inr below)

end Sys2Proof.Machine
end

