-- ==== Sys2Proof/Laws/Ops.lean ====
section
/-! SUPPORT. Laws/Ops.lean: what each shared operation does, once: registers, stack, loads, range check, flags, digits, fault entry. -/

namespace Sys2Proof.Machine

variable (s : State)

/-! ## Registers -/

theorem State.getV_setV (r : Reg) (b : Byte) (r' : Reg) : (s.setV r b).getV r' = if r' = r then b else s.getV r' := by
  show (s.v.set r.toNat b r.isLt)[r'.toNat]'r'.isLt = _
  rw [Vector.getElem_set]
  by_cases h : r' = r
  · rw [if_pos h, if_pos (by rw [h])]
  · rw [if_neg h, if_neg (fun e => h (BitVec.eq_of_toNat_eq e.symm))]; rfl

@[simp] theorem State.getV_setV_same (r : Reg) (b : Byte) : (s.setV r b).getV r = b := by
  rw [State.getV_setV, if_pos rfl]

theorem State.getV_setV_other {r r' : Reg} (b : Byte) (h : r' ≠ r) : (s.setV r b).getV r' = s.getV r' := by
  rw [State.getV_setV, if_neg h]

/-! ## Stack -/

theorem State.push_stack_at (w : Word) (h : s.sp.val < 16) (j : Fin 16) :
    (s.push w h).stack[j.val] = if j.val = s.sp.val then w else s.stack[j.val] := by
  show (s.stack.set s.sp.val w h)[j.val] = _
  rw [Vector.getElem_set]
  by_cases e : s.sp.val = j.val
  · rw [if_pos e, if_pos e.symm]
  · rw [if_neg e, if_neg (Ne.symm e)]

/-- What a CALL saves is what the next RET finds. -/
theorem State.top_push (w : Word) (h : s.sp.val < 16) : (s.push w h).top (Nat.succ_pos _) = w := by
  show (s.stack.set s.sp.val w h)[s.sp.val + 1 - 1]'_ = w
  simp

/-! ## Runs of registers -/

theorem State.regsUpTo_length (x : Reg) : (s.regsUpTo x).length = x.toNat + 1 := by
  have := x.isLt
  simp [State.regsUpTo]; omega

theorem State.regsUpTo_get (x r : Reg) (h : r.toNat ≤ x.toNat) :
    (s.regsUpTo x)[r.toNat]'(by rw [State.regsUpTo_length]; omega) = s.getV r := by
  simp [State.regsUpTo, State.getV]

theorem State.loadRegs_get (base count : Nat) (v : Vector Byte 16) (k : Nat) (hk : k < 16) :
    (s.loadRegs base count v)[k] = if k < count then s.readByte (base + k) else v[k] := by
  induction count with
  | zero => rfl
  | succ n ih =>
    rw [State.loadRegs, Vector.getElem_setIfInBounds]
    by_cases e : n = k
    · rw [if_pos e, if_pos (by omega), e]
    · rw [if_neg e, ih]
      by_cases h : k < n
      · rw [if_pos h, if_pos (by omega)]
      · rw [if_neg h, if_neg (by omega)]

theorem State.getV_setAllV (v : Vector Byte 16) (r : Reg) : (s.setAllV v).getV r = v[r.toNat]'r.isLt := rfl

/-! ## Range check -/

theorem rangeFails_iff (first count : Nat) : rangeFails first count = true ↔ 0 < count ∧ 0x1000 < first + count := by
  simp [rangeFails]

theorem rangeFails_false_iff (first count : Nat) :
    rangeFails first count = false ↔ count = 0 ∨ first + count ≤ 0x1000 := by
  simp only [rangeFails, Bool.and_eq_false_iff, decide_eq_false_iff_not]
  omega

theorem lowestInvalid_toNat (w : Word) : (lowestInvalid w.toNat).toNat = max w.toNat 0x1000 := by
  have := w.isLt
  rw [lowestInvalid, BitVec.toNat_ofNat]
  omega

/-! ## Digits and flags -/

theorem bcdDigits_length (b : Byte) : (bcdDigits b).length = 3 := rfl

theorem flagByte_eq_one (b : Bool) : flagByte b = 1 ↔ b = true := by cases b <;> decide

/-! ## Fault entry -/

/-- Everything `raise` does (R252). -/
theorem State.raise_faults (code : FaultCode) (opcode addr : Word) :
    Faults code opcode addr s (s.raise code opcode addr) where
  status := rfl
  code := rfl
  pcRecorded := rfl
  opcode := rfl
  addr := rfl
  pcKept := rfl
  rest := by constructor <;> simp

/-! ## Next event -/

/-- There is always a next event. -/
theorem nextEvent_exists (s : State) : ∃ e s', NextEvent s e s' := by
  cases h : s.inputs with
  | nil => exact ⟨_, _, .free s h⟩
  | cons e rest => exact ⟨e, _, .listed s e rest h⟩

/-- A step with a STEP next runs `takeStep` on the state the STEP acts on. -/
theorem step_of_stepNext {s s' : State} {r : Byte} {kd : Word} (h : NextEvent s (.step r kd) s') :
    step s = takeStep s' := by
  cases h with
  | free h => simp [step, nextEvent, h]
  | listed e rest h => simp [step, nextEvent, takeEvent, Event.applied, h]

/-- A step with any other event next takes that event on the state without it. -/
theorem step_of_next {s s' : State} {e : Event} (h : NextEvent s e s') (other : ∀ r kd, e ≠ .step r kd) :
    step s = takeEvent e s' := by
  cases h with
  | free h => exact absurd rfl (other _ _)
  | listed e rest h => cases e <;> simp_all [step, nextEvent, Event.applied]

/-- The state an event acts on is the state before it, but for the host's side. -/
theorem NextEvent.sameArch {s s' : State} {e : Event} (h : NextEvent s e s') : SameArch s s' := by
  cases h with
  | free h => constructor <;> rfl
  | listed e rest h => cases e <;> constructor <;> rfl

/-- Everything `takeStep` can do (R109): one of these five, by `status`, `pc` and the word fetched. -/
theorem takeStep_cases (s : State) :
    (s.status ≠ .running ∧ takeStep s = .next s) ∨
    (s.status = .running ∧ inProgramRegion s.pc = false ∧ takeStep s = .next (s.setStatus .ended)) ∨
    (s.status = .running ∧ s.pc = 0xFFF ∧ takeStep s = .next (s.raise .memoryRange 0 0x1000)) ∨
    (s.status = .running ∧ s.canFetch ∧ ∃ e, decode s.fetchWord = .error e ∧
      takeStep s = .next (s.raise .unknownOpcode s.fetchWord 0)) ∨
    (s.status = .running ∧ s.canFetch ∧ ∃ i, decode s.fetchWord = .ok i ∧ takeStep s = exec i s) := by
  by_cases hs : s.status = .running
  · by_cases hr : inProgramRegion s.pc = true
    · by_cases hp : s.pc = 0xFFF
      · exact .inr (.inr (.inl ⟨hs, hp, by rw [takeStep, if_pos hs, if_pos hr, if_pos hp]⟩))
      · have hpn : s.pc.toNat ≠ 0xFFF := fun e => hp (BitVec.eq_of_toNat_eq e)
        have hb : 0x200 ≤ s.pc.toNat ∧ s.pc.toNat < 0x1000 := by simpa [inProgramRegion] using hr
        have hf : s.canFetch := ⟨hb.1, by omega⟩
        cases hd : decode s.fetchWord with
        | error e => exact .inr (.inr (.inr (.inl ⟨hs, hf, e, rfl, by simp only [takeStep, if_pos hs, if_pos hr, if_neg hp, hd]⟩)))
        | ok i => exact .inr (.inr (.inr (.inr ⟨hs, hf, i, rfl, by simp only [takeStep, if_pos hs, if_pos hr, if_neg hp, hd]⟩)))
    · exact .inr (.inl ⟨hs, by simpa using hr, by simp [takeStep, hs, hr]⟩)
  · exact .inl ⟨hs, by simp [takeStep, hs]⟩

end Sys2Proof.Machine
end

