-- ==== Sys2Proof/Laws/Display.lean ====
section
/-! SUPPORT. Laws/Display.lean: what toggling a pixel, drawing a row's columns and drawing rows do, once each. The columns of one
row lie on distinct columns modulo 64 and the rows of one draw on distinct rows modulo 32 (45_display.md R215), which is why each
lemma speaks of the pixels before the draw only. -/

namespace Sys2Proof.Machine

/-- `(px, py)` wrapped onto the grid (R210). -/
abbrev wrapX (px : Nat) : Fin 64 := ⟨px % 64, Nat.mod_lt _ (by omega)⟩
/-- `(px, py)` wrapped onto the grid (R210). -/
abbrev wrapY (py : Nat) : Fin 32 := ⟨py % 32, Nat.mod_lt _ (by omega)⟩

theorem framePixel_toggle (fb : Framebuffer) (px py : Nat) (qx : Fin 64) (qy : Fin 32) :
    framePixel (togglePixel fb px py).1 qx qy =
      (framePixel fb qx qy ^^ decide (qx = wrapX px ∧ qy = wrapY py)) := by
  have hx := qx.isLt
  simp only [framePixel, togglePixel, Vector.getElem_set]
  by_cases hy : py % 32 = qy.val
  · rw [if_pos hy]
    have hw : qy = wrapY py := Fin.ext hy.symm
    subst hw
    rw [BitVec.getLsbD_xor, BitVec.getLsbD_twoPow]
    by_cases hq : qx = wrapX px
    · subst hq; simp [Nat.mod_lt]
    · have hne : px % 64 ≠ qx.val := fun e => hq (Fin.ext e.symm)
      simp [hq, hne]
  · rw [if_neg hy]
    simp [wrapX, wrapY, Fin.ext_iff, Ne.symm hy]

theorem toggle_was (fb : Framebuffer) (px py : Nat) :
    (togglePixel fb px py).2 = framePixel fb (wrapX px) (wrapY py) := rfl

/-- Some column below `count` of the row lies on column `qx`. -/
abbrev columnHits (row : Byte) (px count : Nat) (qx : Fin 64) : Prop :=
  ∃ c, c < count ∧ row.getLsbD (7 - c) = true ∧ qx = wrapX (px + c)

theorem columnHits_succ (row : Byte) (px count : Nat) (qx : Fin 64) :
    columnHits row px (count + 1) qx ↔
      columnHits row px count qx ∨ (row.getLsbD (7 - count) = true ∧ qx = wrapX (px + count)) := by
  constructor
  · rintro ⟨c, hc, hb, hq⟩
    by_cases e : c = count
    · exact .inr (e ▸ ⟨hb, hq⟩)
    · exact .inl ⟨c, by omega, hb, hq⟩
  · rintro (⟨c, hc, hb, hq⟩ | ⟨hb, hq⟩)
    · exact ⟨c, by omega, hb, hq⟩
    · exact ⟨count, by omega, hb, hq⟩

theorem columnHits_fresh (row : Byte) (px count : Nat) (le : count < 64) :
    ¬ columnHits row px count (wrapX (px + count)) := by
  rintro ⟨c, hc, -, hq⟩
  have := congrArg Fin.val hq
  simp only at this
  omega

/-- The columns of one row: exactly the pixels its set bits lie on are toggled. -/
theorem framePixel_drawColumns (row : Byte) (px py count : Nat) (d : Framebuffer × Bool) (le : count ≤ 64)
    (qx : Fin 64) (qy : Fin 32) :
    framePixel (drawColumns row px py count d).1 qx qy =
      (framePixel d.1 qx qy ^^ decide (qy = wrapY py ∧ columnHits row px count qx)) := by
  induction count with
  | zero => simp [drawColumns, columnHits]
  | succ c ih =>
    have ih := ih (by omega)
    have hs := columnHits_succ row px c qx
    have hf := columnHits_fresh row px c (by omega)
    rw [drawColumns]
    by_cases hb : row.getLsbD (7 - c) = true
    · rw [if_pos hb]
      simp only
      rw [framePixel_toggle, ih]
      by_cases hy : qy = wrapY py
      · by_cases hx : qx = wrapX (px + c)
        · have h0 : ¬ columnHits row px c qx := hx ▸ hf
          have h1 : columnHits row px (c + 1) qx := hs.mpr (.inr ⟨hb, hx⟩)
          rw [decide_eq_true (p := qx = wrapX (px + c) ∧ qy = wrapY py) ⟨hx, hy⟩,
            decide_eq_false (p := qy = wrapY py ∧ columnHits row px c qx) (fun h => h0 h.2),
            decide_eq_true (p := qy = wrapY py ∧ columnHits row px (c + 1) qx) ⟨hy, h1⟩]
          simp
        · have h1 : columnHits row px (c + 1) qx ↔ columnHits row px c qx :=
            hs.trans (or_iff_left (fun h => hx h.2))
          rw [decide_eq_false (p := qx = wrapX (px + c) ∧ qy = wrapY py) (fun h => hx h.1)]
          simp only [h1, Bool.xor_false]
      · simp [hy]
    · rw [if_neg hb, ih]
      have h1 : columnHits row px (c + 1) qx ↔ columnHits row px c qx := hs.trans (or_iff_left (fun h => hb h.1))
      simp only [h1]

/-- The collision bit of one row: some pixel a set bit lies on was set before the row (R214). -/
theorem collision_drawColumns (row : Byte) (px py count : Nat) (d : Framebuffer × Bool) (le : count ≤ 64) :
    (drawColumns row px py count d).2 = true ↔
      d.2 = true ∨ ∃ qx, columnHits row px count qx ∧ framePixel d.1 qx (wrapY py) = true := by
  induction count with
  | zero => simp [drawColumns, columnHits]
  | succ c ih =>
    have ih := ih (by omega)
    have hf := columnHits_fresh row px c (by omega)
    rw [drawColumns]
    by_cases hb : row.getLsbD (7 - c) = true
    · rw [if_pos hb]
      simp only [Bool.or_eq_true, toggle_was]
      rw [framePixel_drawColumns _ _ _ _ _ (by omega), decide_eq_false (fun h => hf h.2), Bool.xor_false, ih]
      constructor
      · rintro ((h | ⟨qx, hq, hp⟩) | h)
        · exact .inl h
        · exact .inr ⟨qx, (columnHits_succ ..).mpr (.inl hq), hp⟩
        · exact .inr ⟨_, (columnHits_succ ..).mpr (.inr ⟨hb, rfl⟩), h⟩
      · rintro (h | ⟨qx, hq, hp⟩)
        · exact .inl (.inl h)
        · rcases (columnHits_succ ..).mp hq with hq | ⟨-, hq⟩
          · exact .inl (.inr ⟨qx, hq, hp⟩)
          · exact .inr (hq ▸ hp)
    · rw [if_neg hb, ih]
      have h1 : ∀ qx, columnHits row px (c + 1) qx ↔ columnHits row px c qx := fun qx =>
        (columnHits_succ row px c qx).trans (or_iff_left (fun h => hb h.1))
      simp only [h1]

theorem spriteCovers_succ (sprite : Nat → Byte) (px py n : Nat) (qx : Fin 64) (qy : Fin 32) :
    spriteCovers sprite px py (n + 1) qx qy ↔
      spriteCovers sprite px py n qx qy ∨ (qy = wrapY (py + n) ∧ columnHits (sprite n) px 8 qx) := by
  constructor
  · rintro ⟨r, hr, c, hc, hb, hx, hy⟩
    by_cases e : r = n
    · subst e; exact .inr ⟨Fin.ext hy, c, hc, hb, Fin.ext hx⟩
    · exact .inl ⟨r, by omega, c, hc, hb, hx, hy⟩
  · rintro (⟨r, hr, rest⟩ | ⟨hy, c, hc, hb, hx⟩)
    · exact ⟨r, by omega, rest⟩
    · exact ⟨n, by omega, c, hc, hb, congrArg Fin.val hx, congrArg Fin.val hy⟩

theorem spriteCovers_fresh (sprite : Nat → Byte) (px py n : Nat) (lt : n < 32) (qx : Fin 64) :
    ¬ spriteCovers sprite px py n qx (wrapY (py + n)) := by
  rintro ⟨r, hr, -, -, -, -, hy⟩
  simp only at hy
  omega

/-- A draw toggles exactly the pixels a set bit of the sprite lies on (R213, R215). -/
theorem framePixel_drawRows (sprite : Nat → Byte) (px py n : Nat) (d : Framebuffer × Bool) (le : n ≤ 32)
    (qx : Fin 64) (qy : Fin 32) :
    (spriteCovers sprite px py n qx qy →
      framePixel (drawRows sprite px py n d).1 qx qy = !framePixel d.1 qx qy) ∧
    (¬ spriteCovers sprite px py n qx qy →
      framePixel (drawRows sprite px py n d).1 qx qy = framePixel d.1 qx qy) := by
  induction n with
  | zero =>
    have : ¬ spriteCovers sprite px py 0 qx qy := by rintro ⟨r, hr, -⟩; omega
    exact ⟨fun h => absurd h this, fun _ => rfl⟩
  | succ n ih =>
    obtain ⟨ih1, ih2⟩ := ih (by omega)
    have hs := spriteCovers_succ sprite px py n qx qy
    rw [drawRows, framePixel_drawColumns _ _ _ _ _ (by omega)]
    by_cases hrow : qy = wrapY (py + n) ∧ columnHits (sprite n) px 8 qx
    · have h0 : ¬ spriteCovers sprite px py n qx qy := hrow.1 ▸ spriteCovers_fresh sprite px py n (by omega) qx
      rw [decide_eq_true hrow, ih2 h0]
      exact ⟨fun _ => by simp, fun h => absurd (hs.mpr (.inr hrow)) h⟩
    · rw [decide_eq_false hrow, Bool.xor_false]
      exact ⟨fun h => ih1 ((hs.mp h).resolve_right hrow), fun h => ih2 (fun h' => h (hs.mpr (.inl h')))⟩

/-- The collision bit of a draw: some pixel it toggles was set before it (R214). -/
theorem collision_drawRows (sprite : Nat → Byte) (px py n : Nat) (d : Framebuffer × Bool) (le : n ≤ 32) :
    (drawRows sprite px py n d).2 = true ↔
      d.2 = true ∨ ∃ qx qy, spriteCovers sprite px py n qx qy ∧ framePixel d.1 qx qy = true := by
  induction n with
  | zero =>
    constructor
    · exact .inl
    · rintro (h | ⟨_, _, ⟨r, hr, -⟩, _⟩)
      · exact h
      · omega
  | succ n ih =>
    have ih := ih (by omega)
    have before : ∀ qx, framePixel (drawRows sprite px py n d).1 qx (wrapY (py + n)) =
        framePixel d.1 qx (wrapY (py + n)) := fun qx =>
      (framePixel_drawRows sprite px py n d (by omega) qx _).2 (spriteCovers_fresh sprite px py n (by omega) qx)
    rw [drawRows, collision_drawColumns _ _ _ _ _ (by omega), ih]
    simp only [before]
    constructor
    · rintro ((h | ⟨qx, qy, hc, hp⟩) | ⟨qx, hc, hp⟩)
      · exact .inl h
      · exact .inr ⟨qx, qy, (spriteCovers_succ ..).mpr (.inl hc), hp⟩
      · exact .inr ⟨qx, _, (spriteCovers_succ ..).mpr (.inr ⟨rfl, hc⟩), hp⟩
    · rintro (h | ⟨qx, qy, hc, hp⟩)
      · exact .inl (.inl h)
      · rcases (spriteCovers_succ ..).mp hc with hc | ⟨hy, hc⟩
        · exact .inl (.inr ⟨qx, qy, hc, hp⟩)
        · exact .inr ⟨qx, hc, hy ▸ hp⟩

/-- Every pixel of the clear screen is 0 (R212). -/
theorem framePixel_clear (qx : Fin 64) (qy : Fin 32) : framePixel clearFrame qx qy = false := by
  simp [framePixel, clearFrame]

end Sys2Proof.Machine
end

