-- ==== Sys2Proof/Laws/Exec.lean ====
section
/-! SUPPORT. Laws/Exec.lean: what any instruction can do to the run state, and that every instruction answers a next state. -/

namespace Sys2Proof.Machine

/-- The word fetched depends on the state elements alone. -/
theorem SameArch.fetchWord {s t : State} (h : SameArch s t) : t.fetchWord = s.fetchWord := by
  simp only [State.fetchWord, State.readByte, h.pc, h.mem, h.params]

/-- No instruction stops the model, in any state. -/
theorem exec_next (i : Instr) (s : State) : ∃ t, exec i s = .next t := by
  cases i
  all_goals simp only [exec]
  all_goals first
    | exact ⟨_, rfl⟩
    | (simp only [execRet, execCall, execDrw, execLdBVx, execLdMemVx, execLdVxMem]
       split <;> exact ⟨_, rfl⟩)

/-- An instruction keeps the fault record and `status`, or enters the key wait, or raises one fault and does nothing else. -/
theorem exec_runState {i : Instr} {s t : State} (h : exec i s = .next t) :
    (t.faultCode = s.faultCode ∧ t.faultPc = s.faultPc ∧ t.faultOpcode = s.faultOpcode ∧ t.faultAddr = s.faultAddr ∧
      (t.status = s.status ∨ ∃ x, i = .ldVxK x ∧ t = s.enterWait x)) ∨
    ∃ code opcode addr, code ≠ .none ∧ t = s.raise code opcode addr := by
  cases i
  all_goals simp only [exec] at h
  all_goals first
    | (cases h; exact .inl ⟨rfl, rfl, rfl, rfl, .inl rfl⟩)
    | (cases h; exact .inl ⟨rfl, rfl, rfl, rfl, .inr ⟨_, rfl, rfl⟩⟩)
    | (simp only [execRet, execCall, execDrw, execLdBVx, execLdMemVx, execLdVxMem] at h
       split at h
       all_goals cases h
       all_goals first
        | exact .inl ⟨rfl, rfl, rfl, rfl, .inl rfl⟩
        | exact .inr ⟨_, _, _, by decide, rfl⟩)

end Sys2Proof.Machine
end

