-- ==== Sys2Proof/Laws/PerInstr.lean ====
section
/-! SUPPORT. Laws/PerInstr.lean: statements made for every instruction, one lemma per constructor. The family Selection says that the
word the encoder writes for an instruction meets the condition of the instruction's own row of 30_encoding.md R84. -/

/-- The encoder's word is selected by its own row of the opcode map (R84). -/
def Sys2Proof.Laws.Selection.Statement (i : Sys2Proof.Instr) : Prop :=
  i.wf = true → i.selectedBy (Sys2Proof.encode i)

namespace Sys2Proof.Laws.Selection

theorem cls : Statement .cls := fun _ => rfl
theorem ret : Statement .ret := fun _ => rfl
theorem sys (nnn : Addr) : Statement (.sys nnn) := by
  intro h
  have h' : nnn ≠ 0x0E0 ∧ nnn ≠ 0x0EE := by simpa [Instr.wf] using h
  refine ⟨opField_addr 0x0 nnn, fun e => h'.1 ?_, fun e => h'.2 ?_, (nnnField_addr 0x0 nnn).symm⟩
  · rw [← nnnField_addr 0x0 nnn]
    exact congrArg nnnField e
  · rw [← nnnField_addr 0x0 nnn]
    exact congrArg nnnField e
theorem jp (nnn : Addr) : Statement (.jp nnn) := fun _ => ⟨opField_addr 0x1 nnn, (nnnField_addr 0x1 nnn).symm⟩
theorem call (nnn : Addr) : Statement (.call nnn) := fun _ => ⟨opField_addr 0x2 nnn, (nnnField_addr 0x2 nnn).symm⟩
theorem seVxKk (x : Reg) (kk : Byte) : Statement (.seVxKk x kk) := fun _ =>
  ⟨opField_byte 0x3 x kk, (xField_byte 0x3 x kk).symm, (kkField_byte 0x3 x kk).symm⟩
theorem sneVxKk (x : Reg) (kk : Byte) : Statement (.sneVxKk x kk) := fun _ =>
  ⟨opField_byte 0x4 x kk, (xField_byte 0x4 x kk).symm, (kkField_byte 0x4 x kk).symm⟩
theorem seVxVy (x : Reg) (y : Reg) : Statement (.seVxVy x y) := fun _ =>
  ⟨opField_nibbles 0x5 x y 0x0, nField_nibbles 0x5 x y 0x0, (xField_nibbles 0x5 x y 0x0).symm,
    (yField_nibbles 0x5 x y 0x0).symm⟩
theorem ldVxKk (x : Reg) (kk : Byte) : Statement (.ldVxKk x kk) := fun _ =>
  ⟨opField_byte 0x6 x kk, (xField_byte 0x6 x kk).symm, (kkField_byte 0x6 x kk).symm⟩
theorem addVxKk (x : Reg) (kk : Byte) : Statement (.addVxKk x kk) := fun _ =>
  ⟨opField_byte 0x7 x kk, (xField_byte 0x7 x kk).symm, (kkField_byte 0x7 x kk).symm⟩
theorem ldVxVy (x : Reg) (y : Reg) : Statement (.ldVxVy x y) := fun _ =>
  ⟨opField_nibbles 0x8 x y 0x0, nField_nibbles 0x8 x y 0x0, (xField_nibbles 0x8 x y 0x0).symm,
    (yField_nibbles 0x8 x y 0x0).symm⟩
theorem orVxVy (x : Reg) (y : Reg) : Statement (.orVxVy x y) := fun _ =>
  ⟨opField_nibbles 0x8 x y 0x1, nField_nibbles 0x8 x y 0x1, (xField_nibbles 0x8 x y 0x1).symm,
    (yField_nibbles 0x8 x y 0x1).symm⟩
theorem andVxVy (x : Reg) (y : Reg) : Statement (.andVxVy x y) := fun _ =>
  ⟨opField_nibbles 0x8 x y 0x2, nField_nibbles 0x8 x y 0x2, (xField_nibbles 0x8 x y 0x2).symm,
    (yField_nibbles 0x8 x y 0x2).symm⟩
theorem xorVxVy (x : Reg) (y : Reg) : Statement (.xorVxVy x y) := fun _ =>
  ⟨opField_nibbles 0x8 x y 0x3, nField_nibbles 0x8 x y 0x3, (xField_nibbles 0x8 x y 0x3).symm,
    (yField_nibbles 0x8 x y 0x3).symm⟩
theorem addVxVy (x : Reg) (y : Reg) : Statement (.addVxVy x y) := fun _ =>
  ⟨opField_nibbles 0x8 x y 0x4, nField_nibbles 0x8 x y 0x4, (xField_nibbles 0x8 x y 0x4).symm,
    (yField_nibbles 0x8 x y 0x4).symm⟩
theorem sub (x : Reg) (y : Reg) : Statement (.sub x y) := fun _ =>
  ⟨opField_nibbles 0x8 x y 0x5, nField_nibbles 0x8 x y 0x5, (xField_nibbles 0x8 x y 0x5).symm,
    (yField_nibbles 0x8 x y 0x5).symm⟩
theorem shr (x : Reg) (y : Reg) : Statement (.shr x y) := fun _ =>
  ⟨opField_nibbles 0x8 x y 0x6, nField_nibbles 0x8 x y 0x6, (xField_nibbles 0x8 x y 0x6).symm,
    (yField_nibbles 0x8 x y 0x6).symm⟩
theorem subn (x : Reg) (y : Reg) : Statement (.subn x y) := fun _ =>
  ⟨opField_nibbles 0x8 x y 0x7, nField_nibbles 0x8 x y 0x7, (xField_nibbles 0x8 x y 0x7).symm,
    (yField_nibbles 0x8 x y 0x7).symm⟩
theorem shl (x : Reg) (y : Reg) : Statement (.shl x y) := fun _ =>
  ⟨opField_nibbles 0x8 x y 0xE, nField_nibbles 0x8 x y 0xE, (xField_nibbles 0x8 x y 0xE).symm,
    (yField_nibbles 0x8 x y 0xE).symm⟩
theorem sneVxVy (x : Reg) (y : Reg) : Statement (.sneVxVy x y) := fun _ =>
  ⟨opField_nibbles 0x9 x y 0x0, nField_nibbles 0x9 x y 0x0, (xField_nibbles 0x9 x y 0x0).symm,
    (yField_nibbles 0x9 x y 0x0).symm⟩
theorem ldI (nnn : Addr) : Statement (.ldI nnn) := fun _ => ⟨opField_addr 0xA nnn, (nnnField_addr 0xA nnn).symm⟩
theorem jpV0 (nnn : Addr) : Statement (.jpV0 nnn) := fun _ => ⟨opField_addr 0xB nnn, (nnnField_addr 0xB nnn).symm⟩
theorem rnd (x : Reg) (kk : Byte) : Statement (.rnd x kk) := fun _ =>
  ⟨opField_byte 0xC x kk, (xField_byte 0xC x kk).symm, (kkField_byte 0xC x kk).symm⟩
theorem drw (x : Reg) (y : Reg) (n : Nibble) : Statement (.drw x y n) := fun _ =>
  ⟨opField_nibbles 0xD x y n, (xField_nibbles 0xD x y n).symm, (yField_nibbles 0xD x y n).symm,
    (nField_nibbles 0xD x y n).symm⟩
theorem skp (x : Reg) : Statement (.skp x) := fun _ => ⟨opField_byte 0xE x 0x9E, kkField_byte 0xE x 0x9E, (xField_byte 0xE x 0x9E).symm⟩
theorem sknp (x : Reg) : Statement (.sknp x) := fun _ => ⟨opField_byte 0xE x 0xA1, kkField_byte 0xE x 0xA1, (xField_byte 0xE x 0xA1).symm⟩
theorem ldVxDt (x : Reg) : Statement (.ldVxDt x) := fun _ => ⟨opField_byte 0xF x 0x07, kkField_byte 0xF x 0x07, (xField_byte 0xF x 0x07).symm⟩
theorem ldVxK (x : Reg) : Statement (.ldVxK x) := fun _ => ⟨opField_byte 0xF x 0x0A, kkField_byte 0xF x 0x0A, (xField_byte 0xF x 0x0A).symm⟩
theorem ldDtVx (x : Reg) : Statement (.ldDtVx x) := fun _ => ⟨opField_byte 0xF x 0x15, kkField_byte 0xF x 0x15, (xField_byte 0xF x 0x15).symm⟩
theorem ldStVx (x : Reg) : Statement (.ldStVx x) := fun _ => ⟨opField_byte 0xF x 0x18, kkField_byte 0xF x 0x18, (xField_byte 0xF x 0x18).symm⟩
theorem addIVx (x : Reg) : Statement (.addIVx x) := fun _ => ⟨opField_byte 0xF x 0x1E, kkField_byte 0xF x 0x1E, (xField_byte 0xF x 0x1E).symm⟩
theorem ldFVx (x : Reg) : Statement (.ldFVx x) := fun _ => ⟨opField_byte 0xF x 0x29, kkField_byte 0xF x 0x29, (xField_byte 0xF x 0x29).symm⟩
theorem ldBVx (x : Reg) : Statement (.ldBVx x) := fun _ => ⟨opField_byte 0xF x 0x33, kkField_byte 0xF x 0x33, (xField_byte 0xF x 0x33).symm⟩
theorem ldMemVx (x : Reg) : Statement (.ldMemVx x) := fun _ => ⟨opField_byte 0xF x 0x55, kkField_byte 0xF x 0x55, (xField_byte 0xF x 0x55).symm⟩
theorem ldVxMem (x : Reg) : Statement (.ldVxMem x) := fun _ => ⟨opField_byte 0xF x 0x65, kkField_byte 0xF x 0x65, (xField_byte 0xF x 0x65).symm⟩

end Sys2Proof.Laws.Selection
end

