-- ==== Sys2Proof/Tests/Slice0.lean ====
section
/-! SUPPORT. Tests/Slice0.lean: small tests of one step, the WellFormed smoke, the written-out words, and a witness for each
statement with hypotheses. Expected values are the spec's: 95_test_vectors.md (ids in the docstrings) and the rules' examples. -/

namespace Sys2Proof.Tests

open Sys2Proof.Machine

/-! ## Well-formedness -/

/-- `00E0` is CLS, so SYS with that address has no word of its own (R85). -/
theorem test_wf_refuses_sys_0E0 : (Instr.sys 0x0E0).wf = false := by decide
/-- `00EE` is RET (R85). -/
theorem test_wf_refuses_sys_0EE : (Instr.sys 0x0EE).wf = false := by decide
theorem test_wf_accepts_sys_0E1 : (Instr.sys 0x0E1).wf = true := by decide

/-! ## Words written out, bit by bit, from the formats of R81 and the map of R84 -/

theorem test_decode_fixed :
    decode 0b0000000011100000#16 = .ok .cls ∧ decode 0b0000000011101110#16 = .ok .ret := by decide

theorem test_decode_address :
    decode 0b0000000100100011#16 = .ok (.sys 0x123) ∧ decode 0b0001101010111100#16 = .ok (.jp 0xABC) ∧
    decode 0b0010001100000001#16 = .ok (.call 0x301) ∧ decode 0b1010000100100011#16 = .ok (.ldI 0x123) ∧
    decode 0b1011111111111110#16 = .ok (.jpV0 0xFFE) := by decide

theorem test_decode_register_byte :
    decode 0b0011101001000010#16 = .ok (.seVxKk 0xA 0x42) ∧ decode 0b0100101001000010#16 = .ok (.sneVxKk 0xA 0x42) ∧
    decode 0b0110000000000101#16 = .ok (.ldVxKk 0x0 0x05) ∧ decode 0b0111001000000010#16 = .ok (.addVxKk 0x2 0x02) ∧
    decode 0b1100001100001111#16 = .ok (.rnd 0x3 0x0F) := by decide

theorem test_decode_two_registers :
    decode 0b0101000100100000#16 = .ok (.seVxVy 0x1 0x2) ∧ decode 0b1001000100100000#16 = .ok (.sneVxVy 0x1 0x2) ∧
    decode 0b1000101010110000#16 = .ok (.ldVxVy 0xA 0xB) ∧ decode 0b1000101010110001#16 = .ok (.orVxVy 0xA 0xB) ∧
    decode 0b1000101010110010#16 = .ok (.andVxVy 0xA 0xB) ∧ decode 0b1000101010110011#16 = .ok (.xorVxVy 0xA 0xB) ∧
    decode 0b1000101010110100#16 = .ok (.addVxVy 0xA 0xB) ∧ decode 0b1000101010110101#16 = .ok (.sub 0xA 0xB) ∧
    decode 0b1000101010110110#16 = .ok (.shr 0xA 0xB) ∧ decode 0b1000101010110111#16 = .ok (.subn 0xA 0xB) ∧
    decode 0b1000101010111110#16 = .ok (.shl 0xA 0xB) ∧ decode 0b1101000000010101#16 = .ok (.drw 0x0 0x1 0x5) := by decide

theorem test_decode_register_suffix :
    decode 0b1110010110011110#16 = .ok (.skp 0x5) ∧ decode 0b1110010110100001#16 = .ok (.sknp 0x5) ∧
    decode 0b1111001100000111#16 = .ok (.ldVxDt 0x3) ∧ decode 0b1111000100001010#16 = .ok (.ldVxK 0x1) ∧
    decode 0b1111000000010101#16 = .ok (.ldDtVx 0x0) ∧ decode 0b1111000100011000#16 = .ok (.ldStVx 0x1) ∧
    decode 0b1111010000011110#16 = .ok (.addIVx 0x4) ∧ decode 0b1111001000101001#16 = .ok (.ldFVx 0x2) ∧
    decode 0b1111010100110011#16 = .ok (.ldBVx 0x5) ∧ decode 0b1111111101010101#16 = .ok (.ldMemVx 0xF) ∧
    decode 0b1111000101100101#16 = .ok (.ldVxMem 0x1) := by decide

/-- D-DEC-1, 2, 4, 5, 8. -/
theorem test_decode_illegal :
    decode 0x5121 = .error (.family5 0x5121) ∧ decode 0x9AB1 = .error (.family9 0x9AB1) ∧
    decode 0x800F = .error (.family8 0x800F) ∧ decode 0xE09F = .error (.familyE 0xE09F) ∧
    decode 0xF030 = .error (.familyF 0xF030) := by decide

/-- Bytes: the first is the high byte (R64); one byte is no instruction (R80). -/
theorem test_decode_bytes :
    decodeBytes [0xA1, 0x23, 0x60] = .ok (.ldI 0x123, [0x60]) ∧ decodeBytes [0xA1] = .error .truncated := by decide

theorem test_decode_table_word :
    decodeTableWord 16 0xD015 = some (.drw 0 1 5) ∧ decodeTableWord 16 0x8008 = none := by decide

/-! ## One step each -/

/-- What holds after one STEP that runs the word `w` placed at `pc`, the values at the ports being `randByte` and `keyDown`. -/
def after (w : Word) (s : State) (p : State → Bool) : Bool :=
  match step ((s.storeBytes s.pc.toNat [highByte w, lowByte w]).setInputs [.step s.randByte s.keyDown]) with
  | .next t => p t
  | .fault _ => false
  | .refused _ => false

/-- What holds after one event other than a STEP. -/
def afterEvent (e : Event) (s : State) (p : State → Bool) : Bool :=
  match step (s.setInputs [e]) with
  | .next t => p t
  | .fault _ => false
  | .refused _ => false

/-- A fault with this record, `pc` kept. -/
def faultedWith (code : FaultCode) (opcode addr : Word) (s t : State) : Bool :=
  t.status == .faulted && t.faultCode == code && t.faultPc == s.pc && t.faultOpcode == opcode && t.faultAddr == addr &&
    t.pc == s.pc

/-- `S0` with some registers set. -/
def regs (vs : List (Reg × Byte)) : State := vs.foldl (fun s c => s.setV c.1 c.2) State.reset

/-- The example of R212. -/
theorem test_cls : after 0x00E0 { State.reset with fb := Vector.replicate 32 0xFF } (fun t =>
    t.fb == Vector.replicate 32 0 && t.fbUpdates == [Vector.replicate 32 0] && t.pc == 0x202) = true := by decide
/-- D-CF-7. -/
theorem test_ret : after 0x00EE { State.reset with pc := 0x300, sp := 1, stack := State.reset.stack.set 0 0x202 } (fun t =>
    t.pc == 0x202 && t.sp == 0 && t.stack[0] == 0x202) = true := by decide
/-- D-CF-8. -/
theorem test_ret_underflow : after 0x00EE State.reset (fun t =>
    faultedWith .stackUnderflow 0x00EE 0 State.reset t && t.sp == 0) = true := by decide
/-- D-SYS-1. -/
theorem test_sys : after 0x0123 State.reset (fun t => t.pc == 0x202 && t.v == State.reset.v) = true := by decide
/-- D-CF-1. -/
theorem test_jp : after 0x1ABC State.reset (fun t => t.pc == 0xABC) = true := by decide
/-- D-CF-5. -/
theorem test_call_sixteenth : after 0x2300 { State.reset with sp := 15 } (fun t =>
    t.pc == 0x300 && t.sp == 16 && t.stack[15] == 0x202) = true := by decide
/-- D-CF-6. -/
theorem test_call_overflow : after 0x2300 { State.reset with sp := 16 } (fun t =>
    faultedWith .stackOverflow 0x2300 0 State.reset t && t.sp == 16) = true := by decide
/-- D-CF-11. -/
theorem test_jpV0 : after 0xBFFF (regs [(0, 0xFF)]) (fun t => t.pc == 0x10FE) = true := by decide
/-- D-SKP-1, 2. -/
theorem test_seVxKk : (after 0x3A42 (regs [(0xA, 0x42)]) (fun t => t.pc == 0x204) &&
    after 0x3A42 (regs [(0xA, 0x41)]) (fun t => t.pc == 0x202)) = true := by decide
/-- D-SKP-3, 4. -/
theorem test_sneVxKk : (after 0x4A42 (regs [(0xA, 0x42)]) (fun t => t.pc == 0x202) &&
    after 0x4A42 (regs [(0xA, 0x41)]) (fun t => t.pc == 0x204)) = true := by decide
/-- D-SKP-5, 6. -/
theorem test_seVxVy : (after 0x5AB0 (regs [(0xA, 7), (0xB, 7)]) (fun t => t.pc == 0x204) &&
    after 0x5AB0 (regs [(0xA, 7), (0xB, 8)]) (fun t => t.pc == 0x202)) = true := by decide
/-- D-SKP-7, 8. -/
theorem test_sneVxVy : (after 0x9AB0 (regs [(0xA, 7), (0xB, 8)]) (fun t => t.pc == 0x204) &&
    after 0x9AB0 (regs [(0xA, 7), (0xB, 7)]) (fun t => t.pc == 0x202)) = true := by decide
/-- D-ALU-1. -/
theorem test_ldVxKk : after 0x6A5C State.reset (fun t => t.getV 0xA == 0x5C && t.pc == 0x202) = true := by decide
/-- D-ALU-3. -/
theorem test_addVxKk : after 0x7A01 (regs [(0xA, 0xFF), (0xF, 7)]) (fun t =>
    t.getV 0xA == 0 && t.getV 0xF == 7) = true := by decide
/-- D-ALU-5. -/
theorem test_ldVxVy : after 0x8AB0 (regs [(0xB, 0x33)]) (fun t => t.getV 0xA == 0x33) = true := by decide
/-- D-ALU-6. -/
theorem test_or : after 0x8AB1 (regs [(0xA, 0xF0), (0xB, 0x0F), (0xF, 5)]) (fun t =>
    t.getV 0xA == 0xFF && t.getV 0xF == 5) = true := by decide
/-- D-ALU-7. -/
theorem test_and : after 0x8AB2 (regs [(0xA, 0xF0), (0xB, 0x3C), (0xF, 5)]) (fun t =>
    t.getV 0xA == 0x30 && t.getV 0xF == 5) = true := by decide
/-- D-ALU-8. -/
theorem test_xor : after 0x8AB3 (regs [(0xA, 0xF0), (0xB, 0x3C), (0xF, 5)]) (fun t =>
    t.getV 0xA == 0xCC && t.getV 0xF == 5) = true := by decide
/-- L1-1d. -/
theorem test_addVxVy : after 0x8014 (regs [(0, 0xFF), (1, 0xFF)]) (fun t =>
    t.getV 0 == 0xFE && t.getV 0xF == 1) = true := by decide
/-- D-ALU-11, 12: VF as destination, VF as source. -/
theorem test_addVxVy_vF : (after 0x8FA4 (regs [(0xF, 0x10), (0xA, 0x10)]) (fun t => t.getV 0xF == 0) &&
    after 0x8AF4 (regs [(0xA, 1), (0xF, 0xFF)]) (fun t => t.getV 0xA == 0 && t.getV 0xF == 1)) = true := by decide
/-- L1-2c. -/
theorem test_sub : after 0x8015 (regs [(0, 2), (1, 3)]) (fun t => t.getV 0 == 0xFF && t.getV 0xF == 0) = true := by decide
/-- L1-2b: equal operands clear VF. -/
theorem test_sub_equal : after 0x8015 (regs [(0, 3), (1, 3), (0xF, 1)]) (fun t =>
    t.getV 0 == 0 && t.getV 0xF == 0) = true := by decide
/-- D-ALU-21. -/
theorem test_shr : after 0x8AB6 (regs [(0xA, 4), (0xB, 0xFF)]) (fun t =>
    t.getV 0xA == 2 && t.getV 0xF == 0 && t.getV 0xB == 0xFF) = true := by decide
/-- D-ALU-19: `SHIFT_SRC = VY`. -/
theorem test_shr_vy :
    after 0x8AB6 { regs [(0xB, 5)] with params := { Config.defaultParams with shiftSrc := .vy } } (fun t =>
      t.getV 0xA == 2 && t.getV 0xF == 1 && t.getV 0xB == 5) = true := by decide
/-- D-ALU-16. -/
theorem test_subn : after 0x8AB7 (regs [(0xA, 5), (0xB, 3)]) (fun t =>
    t.getV 0xA == 0xFE && t.getV 0xF == 0) = true := by decide
/-- L1-3c. -/
theorem test_shl : after 0x820E (regs [(2, 0x81)]) (fun t => t.getV 2 == 2 && t.getV 0xF == 1) = true := by decide
/-- D-ALU-18: VF as destination. -/
theorem test_shl_vF : after 0x8FFE (regs [(0xF, 0x40)]) (fun t => t.getV 0xF == 0) = true := by decide
/-- D-ALU-22. -/
theorem test_rnd : after 0xCA0F { State.reset with randByte := 0xA7 } (fun t => t.getV 0xA == 7) = true := by decide
/-- D-IDX-2. -/
theorem test_ldI : after 0xAFFF State.reset (fun t => t.i == 0xFFF && t.pc == 0x202) = true := by decide
/-- D-IDX-4. -/
theorem test_addIVx : after 0xFA1E { regs [(0xA, 2)] with i := 0xFFFF } (fun t =>
    t.i == 1 && t.getV 0xF == 0) = true := by decide
/-- D-IDX-7. -/
theorem test_ldFVx : after 0xFA29 (regs [(0xA, 0xFF)]) (fun t => t.i == 0x4FB) = true := by decide
/-- L1-6a. -/
theorem test_ldBVx : after 0xF533 { regs [(5, 0xEA)] with i := 0x300 } (fun t =>
    t.readByte 0x300 == 2 && t.readByte 0x301 == 3 && t.readByte 0x302 == 4 && t.i == 0x300) = true := by decide
/-- R193 with R69: `I + 2 = 0x1000`. -/
theorem test_ldBVx_range : after 0xF533 { regs [(5, 0xEA)] with i := 0xFFE } (fun t =>
    faultedWith .memoryRange 0xF533 0x1000 State.reset t && t.readByte 0xFFE == 0) = true := by decide
/-- The example of R194. -/
theorem test_ldMemVx : after 0xF155 { regs [(0, 0x11), (1, 0x22)] with i := 0x300 } (fun t =>
    t.readByte 0x300 == 0x11 && t.readByte 0x301 == 0x22 && t.readByte 0x302 == 0 && t.i == 0x300) = true := by decide
/-- The example of R70. -/
theorem test_ldMemVx_range : after 0xF155 { State.reset with i := 0xFFFF } (fun t =>
    faultedWith .memoryRange 0xF155 0xFFFF State.reset t) = true := by decide
/-- The example of R195. -/
theorem test_ldVxMem : after 0xF165 { State.reset.storeBytes 0x300 [0x11, 0x22, 0x33] with i := 0x300 } (fun t =>
    t.getV 0 == 0x11 && t.getV 1 == 0x22 && t.getV 2 == 0 && t.i == 0x300) = true := by decide
/-- The example of R213: glyph 0 at the origin (bit `px` of a row is pixel `px`). -/
theorem test_drw : after 0xD015 State.reset (fun t =>
    t.fb[0] == 0xF && t.fb[1] == 0x9 && t.fb[3] == 0x9 && t.fb[4] == 0xF && t.fb[5] == 0 && t.getV 0xF == 0 &&
    t.fbUpdates == [t.fb]) = true := by decide
/-- R210 at the corner: two set bits drawn at (63, 31) with one pixel set there. -/
theorem test_drw_wraps : after 0xD012
    { (regs [(0, 63), (1, 31)]).storeBytes 0x300 [0xC0, 0x40] with
      i := 0x300, fb := (Vector.replicate 32 0).set 31 (BitVec.twoPow 64 63) } (fun t =>
    t.fb[31] == 1 && t.fb[0] == 1 && t.getV 0xF == 1) = true := by decide
/-- D-SKP-12, 16. -/
theorem test_skp : (after 0xE59E { regs [(5, 5)] with keyDown := 0x0020 } (fun t => t.pc == 0x204) &&
    after 0xE09E { regs [(0, 0x10)] with keyDown := 0xFFFF } (fun t => t.pc == 0x202)) = true := by decide
/-- D-SKP-14, 19. -/
theorem test_sknp : (after 0xE5A1 { regs [(5, 5)] with keyDown := 0x0020 } (fun t => t.pc == 0x202) &&
    after 0xE5A1 { regs [(5, 5)] with
      keyDown := 0xFFFF, params := { Config.defaultParams with hasKeyState := false } } (fun t => t.pc == 0x204)) = true := by
  decide
/-- The example of R232. -/
theorem test_ldVxDt : after 0xF307 { State.reset with dt := 0x2A } (fun t => t.getV 3 == 0x2A) = true := by decide
/-- The example of R233. -/
theorem test_ldDtVx : after 0xF015 (regs [(0, 5)]) (fun t => t.dt == 5 && t.st == 0) = true := by decide
/-- The example of R234. -/
theorem test_ldStVx : after 0xF118 (regs [(1, 0x10)]) (fun t => t.st == 0x10 && t.dt == 0 && t.soundOn) = true := by decide
/-- The example of R236. -/
theorem test_ldVxK : after 0xF10A { State.reset with pc := 0x204 } (fun t =>
    t.status == .waitKey && t.waitX == 1 && t.pc == 0x204 && t.v == State.reset.v) = true := by decide

/-! ## Events and the checks of a STEP -/

/-- The example of R237. -/
theorem test_key : afterEvent (.key 0x0B) { State.reset with pc := 0x204, status := .waitKey, waitX := 1 } (fun t =>
    t.getV 1 == 0x0B && t.pc == 0x206 && t.status == .running) = true := by decide
/-- The example of R238. -/
theorem test_abort :
    let s := { State.reset.storeBytes 0x204 [0xF1, 0x0A] with pc := 0x204, status := .waitKey, waitX := 1 }
    afterEvent .abort s (faultedWith .inputAborted 0xF10A 0 s) = true := by decide
/-- L1-8a, L1-8b. -/
theorem test_tick : afterEvent .tick { State.reset with dt := 5 } (fun t => t.dt == 4 && t.st == 0) = true := by decide
/-- D-CYC-10. -/
theorem test_tick_faulted : afterEvent .tick { State.reset with dt := 3, status := .faulted } (fun t => t.dt == 3) = true := by
  decide
/-- The image of L1-9a, over a dirty machine. -/
theorem test_reset_event :
    afterEvent (.reset [0x60, 0x05]) { regs [(3, 9)] with status := .faulted, pc := 0x777, dt := 4 } (fun t =>
      t == { State.reset with mem := [(0x200, 0x60), (0x201, 0x05)] }) = true := by decide
/-- D-CYC-1 and D-CYC-3, the two ends. -/
theorem test_end_of_run : (after 0x6005 { State.reset with pc := 0x1FE } (fun t =>
      t.status == .ended && t.pc == 0x1FE && t.getV 0 == 0 && t.faultCode == .none) &&
    afterEvent (.step 0 0) { State.reset with pc := 0x1000 } (fun t => t.status == .ended)) = true := by decide
/-- D-CYC-5. -/
theorem test_fetch_at_FFF : afterEvent (.step 0 0) { State.reset with pc := 0xFFF } (fun t =>
    faultedWith .memoryRange 0 0x1000 { State.reset with pc := 0xFFF } t) = true := by decide
/-- D-CYC-7: an odd `pc`. -/
theorem test_odd_pc : after 0x6005 { State.reset with pc := 0x201 } (fun t => t.getV 0 == 5 && t.pc == 0x203) = true := by
  decide
/-- D-DEC-1. -/
theorem test_unknown_opcode : after 0x5121 State.reset (faultedWith .unknownOpcode 0x5121 0 State.reset) = true := by decide
/-- The words of L1-6 run as the first instruction after reset. -/
theorem test_placed_word_runs :
    (match step (State.reset.withFetchWord 16 0x6005) with
     | .next t => t.getV 0 == 5 && t.pc == 0x202
     | .fault _ => false
     | .refused _ => false) = true := by decide

/-! ## Witnesses: a concrete case that meets every hypothesis of a statement -/

/-- A running machine at `pc` with a list of events, all else as after reset. -/
def running (pc : Word) (es : List Event) : State := { State.reset with pc := pc, inputs := es }

/-- A machine in the key wait at `pc` on `V1`, its `F10A` in memory where it fits. -/
def waiting (pc : Word) (es : List Event) : State :=
  { State.reset.storeBytes pc.toNat [0xF1, 0x0A] with pc := pc, status := .waitKey, waitX := 1, inputs := es }

/-- A machine with a word placed at `pc` 0x200 and a STEP next. -/
def placed (w : Word) (s : State) : State := (s.storeBytes 0x200 [highByte w, lowByte w]).setInputs [.step 0xA7 0xFFFF]

theorem next_listed (s : State) (e : Event) (rest : List Event) (h : s.inputs = e :: rest) :
    ∃ s', NextEvent s e s' := ⟨_, .listed s e rest h⟩

theorem witness_DecodeOfEncodeIsIdentity : (Instr.sys 0x0E1).wf = true ∧ (Instr.drw 0xF 0xF 0xF).wf = true := by decide

theorem witness_EncodeOfDecodeIsTheWord : decode 0x0000 = .ok (.sys 0) ∧ decode 0xFFFF ≠ .ok (.sys 0) := by decide

/-- At both ends of the fetchable region. -/
theorem witness_StepRunsTheDecodedInstruction :
    (∃ s', NextEvent (placed 0x6005 State.reset) (.step 0xA7 0xFFFF) s') ∧ (placed 0x6005 State.reset).status = .running ∧
    (placed 0x6005 State.reset).canFetch ∧
    decode (wordOfBytes ((placed 0x6005 State.reset).readByte (placed 0x6005 State.reset).pc.toNat)
      ((placed 0x6005 State.reset).readByte ((placed 0x6005 State.reset).pc.toNat + 1))) = .ok (.ldVxKk 0 5) ∧
    (running 0xFFE []).canFetch :=
  ⟨next_listed _ _ _ rfl, by decide, by decide, by decide, by decide⟩

/-- The empty list: a STEP with free draws. -/
theorem witness_freeStep : ∃ r kd s', NextEvent State.reset (.step r kd) s' ∧ State.reset.status = .running ∧
    State.reset.canFetch ∧ decode (wordOfBytes (State.reset.readByte State.reset.pc.toNat)
      (State.reset.readByte (State.reset.pc.toNat + 1))) = .ok (.sys 0) :=
  ⟨_, _, _, .free _ rfl, by decide, by decide, by decide⟩

theorem witness_StepOutsideTheProgramRegionEndsTheRun :
    (∃ s', NextEvent (running 0x1FF [.step 0 0]) (.step 0 0) s') ∧ (running 0x1FF []).pc.toNat < 0x200 ∧
    (∃ s', NextEvent (running 0x1000 [.step 0 0]) (.step 0 0) s') ∧ 0x1000 ≤ (running 0x1000 []).pc.toNat ∧
    (running 0x1FF [.step 0 0]).status = .running ∧ (running 0x1000 [.step 0 0]).status = .running :=
  ⟨next_listed _ _ _ rfl, by decide, next_listed _ _ _ rfl, by decide, rfl, rfl⟩

theorem witness_FetchAtTheLastAddressFaults :
    (∃ s', NextEvent (running 0xFFF [.step 0 0]) (.step 0 0) s') ∧ (running 0xFFF [.step 0 0]).status = .running ∧
    (running 0xFFF [.step 0 0]).pc = 0xFFF :=
  ⟨next_listed _ _ _ rfl, rfl, rfl⟩

/-- D-DEC-1. -/
theorem witness_IllegalWordRaisesUnknownOpcode :
    (∃ s', NextEvent (placed 0x5121 State.reset) (.step 0xA7 0xFFFF) s') ∧ (placed 0x5121 State.reset).status = .running ∧
    (placed 0x5121 State.reset).canFetch ∧
    (0x5121 : Word).toNat = ((placed 0x5121 State.reset).readByte (placed 0x5121 State.reset).pc.toNat).toNat * 256 +
      ((placed 0x5121 State.reset).readByte ((placed 0x5121 State.reset).pc.toNat + 1)).toNat ∧
    decode 0x5121 = .error (.family5 0x5121) :=
  ⟨next_listed _ _ _ rfl, by decide, by decide, by decide, by decide⟩

theorem witness_UnacceptedEventsChangeNothing :
    (∃ s', NextEvent (waiting 0x200 [.step 0 0]) (.step 0 0) s') ∧
      (Event.step 0 0).acceptedIn (waiting 0x200 [.step 0 0]).status = false ∧
    (∃ s', NextEvent (running 0x200 [.key 3]) (.key 3) s') ∧ (Event.key 3).acceptedIn (running 0x200 [.key 3]).status = false :=
  ⟨next_listed _ _ _ rfl, by decide, next_listed _ _ _ rfl, by decide⟩

/-- Both halted states, events of every other kind listed. -/
theorem witness_HaltedMachineStaysHalted :
    let es := [.tick, .key 1, .abort, .step 0 0]
    ({ State.reset with status := .ended, inputs := es } : State).status = .ended ∧
    ({ State.reset with status := .faulted, inputs := es } : State).status = .faulted ∧
    ∀ image, Event.reset image ∉ es := by
  refine ⟨rfl, rfl, fun image => ?_⟩
  simp

theorem witness_TickCountsBothTimersDown :
    (∃ s', NextEvent (running 0x200 [.tick]) .tick s') ∧ (running 0x200 [.tick]).status = .running ∧
    (∃ s', NextEvent (waiting 0x200 [.tick]) .tick s') ∧ (waiting 0x200 [.tick]).status = .waitKey :=
  ⟨next_listed _ _ _ rfl, rfl, next_listed _ _ _ rfl, rfl⟩

/-- Zero TICKs, and L1-8's six. -/
theorem witness_TicksDrainTheTimersToZero :
    (running 0x200 [.abort]).status = .running ∧ (running 0x200 [.abort]).inputs = List.replicate 0 .tick ++ [.abort] ∧
    (running 0x200 [.tick, .tick, .tick, .tick, .tick, .tick]).inputs = List.replicate 6 .tick ++ [] :=
  ⟨rfl, rfl, rfl⟩

theorem witness_KeyCompletesTheWait :
    (∃ s', NextEvent (waiting 0x204 [.key 0x0B]) (.key 0x0B) s') ∧ (waiting 0x204 [.key 0x0B]).status = .waitKey :=
  ⟨next_listed _ _ _ rfl, rfl⟩

/-- Both clauses, at the two addresses where they meet. -/
theorem witness_AbortRaisesInputAborted :
    (∃ s', NextEvent (waiting 0xFFE [.abort]) .abort s') ∧ (waiting 0xFFE [.abort]).status = .waitKey ∧
      (waiting 0xFFE [.abort]).pc.toNat + 1 < 0x1000 ∧
    (∃ s', NextEvent { State.reset with status := .waitKey, pc := 0xFFF, inputs := [.abort] } .abort s') ∧
      0x1000 ≤ ({ State.reset with status := .waitKey, pc := 0xFFF, inputs := [.abort] } : State).pc.toNat + 1 :=
  ⟨next_listed _ _ _ rfl, rfl, by decide, next_listed _ _ _ rfl, by decide⟩

/-- The longest image that can be placed, and the empty one. -/
theorem witness_ResetEventSetsEveryStateElement :
    (∃ s', NextEvent (running 0x200 [.reset (List.replicate 3584 0xFF)]) (.reset (List.replicate 3584 0xFF)) s') ∧
    (List.replicate 3584 (0xFF : Byte)).length ≤ 3584 ∧
    (∃ s', NextEvent (running 0x200 [.reset []]) (.reset []) s') ∧ ([] : List Byte).length ≤ 3584 :=
  ⟨next_listed _ _ _ rfl, by rw [List.length_replicate], next_listed _ _ _ rfl, Nat.zero_le _⟩

theorem witness_TooLongImageIsRefused :
    (∃ s', NextEvent (running 0x200 [.reset (List.replicate 3585 0)]) (.reset (List.replicate 3585 0)) s') ∧
    3584 < (List.replicate 3585 (0 : Byte)).length :=
  ⟨next_listed _ _ _ rfl, by rw [List.length_replicate]; decide⟩

theorem witness_CallSavesTheReturnAddress :
    ({ State.reset with sp := 15 } : State).sp.val < 16 ∧ ({ State.reset with sp := 16 } : State).sp = 16 := by decide

theorem witness_ReturnTakesTheSavedAddress :
    ({ State.reset with sp := 1 } : State).sp.val = (0 : Fin 16).val + 1 ∧
    ({ State.reset with sp := 16 } : State).sp.val = (15 : Fin 16).val + 1 ∧ State.reset.sp = 0 := by decide

/-- All sixteen levels from the empty stack, and the last one from fifteen saved. -/
theorem witness_NestedCallsReturnToTheSuccessor :
    List.replicate 16 (0x300 : Addr) ≠ [] ∧ State.reset.sp.val + (List.replicate 16 (0x300 : Addr)).length ≤ 16 ∧
    ([0x300] : List Addr) ≠ [] ∧ ({ State.reset with sp := 15 } : State).sp.val + ([0x300] : List Addr).length ≤ 16 := by decide

/-- Both values of `SHIFT_SRC`. -/
theorem witness_ShiftsSetVFToTheBitShiftedOut :
    let s := regs [(0xA, 4), (0xB, 5)]
    let s' : State := { s with params := { Config.defaultParams with shiftSrc := .vy } }
    ((s.params.shiftSrc = .vx → (4 : Byte) = s.getV 0xA) ∧ (s.params.shiftSrc = .vy → (4 : Byte) = s.getV 0xB)) ∧
    ((s'.params.shiftSrc = .vx → (5 : Byte) = s'.getV 0xA) ∧ (s'.params.shiftSrc = .vy → (5 : Byte) = s'.getV 0xB)) := by
  decide

/-- VF as destination and not, for the clauses of the two flag statements. -/
theorem witness_flagDestinations : (0xE : Reg) ≠ 0xF#4 ∧ ¬ ((0xF : Reg) ≠ 0xF#4) := by decide

theorem witness_FlagsDoNotDependOnTheOldVF :
    (0xE : Reg) ≠ 0xF#4 ∧ (0x0 : Reg) ≠ 0xF#4 ∧
    ({ State.reset with i := 0xFF1 } : State).i.toNat + (0xF : Nibble).toNat ≤ 0x1000 := by decide

/-- The last address that fits, the first that does not, and one past the end of memory. -/
theorem witness_BcdStoresThreeDigits :
    ({ State.reset with i := 0xFFD } : State).i.toNat + 2 < 0x1000 ∧
    0x1000 ≤ ({ State.reset with i := 0xFFE } : State).i.toNat + 2 ∧ (0x1000 : Word).toNat = max (0xFFE : Word).toNat 0x1000 ∧
    0x1000 ≤ ({ State.reset with i := 0xFFFF } : State).i.toNat + 2 ∧
    (0xFFFF : Word).toNat = max (0xFFFF : Word).toNat 0x1000 := by decide

/-- For the store and the load: `x = 15` at both sides of the limit, `x = 0` at the last byte. -/
theorem witness_StoreRegistersFromIndex :
    ({ State.reset with i := 0xFF0 } : State).i.toNat + (0xF : Reg).toNat < 0x1000 ∧
    ({ State.reset with i := 0xFFF } : State).i.toNat + (0 : Reg).toNat < 0x1000 ∧
    0x1000 ≤ ({ State.reset with i := 0xFF1 } : State).i.toNat + (0xF : Reg).toNat ∧
    (0x1000 : Word).toNat = max (0xFF1 : Word).toNat 0x1000 := by decide

theorem witness_LoadRegistersFromIndex :
    ({ State.reset with i := 0xFF0 } : State).i.toNat + (0xF : Reg).toNat < 0x1000 ∧
    0x1000 ≤ ({ State.reset with i := 0x1000 } : State).i.toNat + (0 : Reg).toNat ∧
    (0x1000 : Word).toNat = max (0x1000 : Word).toNat 0x1000 := by decide

/-- L1-7a: the registers zeroed between the two. -/
theorem witness_StoreThenLoadRestoresTheRegisters :
    let s : State := { regs [(0, 0x11), (1, 0x22), (2, 0x33), (3, 0x44)] with i := 0x300 }
    s.i.toNat + (3 : Reg).toNat < 0x1000 ∧
    ∃ t, exec (.ldMemVx 3) s = .next t ∧
      ∃ u : State, u.v = Vector.replicate 16 0 ∧ u.i = s.i ∧
        (∀ k, k ≤ (3 : Reg).toNat → u.readByte (s.i.toNat + k) = t.readByte (s.i.toNat + k)) ∧
        ∃ w, exec (.ldVxMem 3) u = .next w := by
  refine ⟨by decide, _, rfl, { ({ regs [(0, 0x11), (1, 0x22), (2, 0x33), (3, 0x44)] with i := 0x300 } : State).storeBytes 0x300
    [0x11, 0x22, 0x33, 0x44] with v := Vector.replicate 16 0 }, rfl, rfl, fun k _ => rfl, exec_next _ _⟩

/-- D-SMC-1, the word stored just after the store. -/
theorem witness_StoredWordIsTheNextFetched :
    let s : State := { regs [(0, 0x61), (1, 0x2A)] with i := 0x202 }
    s.i.toNat + (1 : Reg).toNat < 0x1000 ∧ (1 : Reg).toNat = (0 : Reg).toNat + 1 ∧ (1 : Reg).toNat ≤ (1 : Reg).toNat ∧
    s.i.toNat + (0 : Reg).toNat = (s.pc + 2).toNat ∧ ∃ t, exec (.ldMemVx 1) s = .next t :=
  ⟨by decide, by decide, by decide, by decide, exec_next _ _⟩

/-- `n = 0` at an `I` past memory, the largest sprite at the end of memory, and one row past it. -/
theorem witness_DrawFlipsTheSpriteAndReportsCollision :
    (0 : Nibble) = 0 ∧ ({ State.reset with i := 0xFF1 } : State).i.toNat + (0xF : Nibble).toNat ≤ 0x1000 ∧
    (0xF : Nibble) ≠ 0 ∧ 0x1000 ≤ ({ State.reset with i := 0xFF2 } : State).i.toNat + (0xF : Nibble).toNat - 1 ∧
    (0x1000 : Word).toNat = max (0xFF2 : Word).toNat 0x1000 := by decide

/-- Pixels of glyph 0 drawn at the origin that are covered, and one that is not. -/
theorem witness_covers : State.reset.covers 0 1 5 3 4 ∧ ¬ State.reset.covers 0 1 5 1 1 := by
  constructor
  · exact ⟨4, by decide, 3, by decide, by decide, by decide, by decide⟩
  · rintro ⟨r, hr, c, hc, hb, hx, hy⟩
    have hr' : r < 5 := hr
    have e1 : (State.reset.getV 0).toNat = 0 := rfl
    have e2 : (State.reset.getV 1).toNat = 0 := rfl
    rw [e1] at hx
    rw [e2] at hy
    have : c = 1 := by
      have : (1 : Nat) = (0 + c) % 64 := hx
      omega
    have : r = 1 := by
      have : (1 : Nat) = (0 + r) % 32 := hy
      omega
    subst_vars
    exact absurd hb (by decide)

/-- The glyph drawn twice from the reset state (R216). -/
theorem witness_DrawingTwiceRestoresTheFramebuffer :
    State.reset.i.toNat + (5 : Nibble).toNat ≤ 0x1000 ∧
    ∃ t, exec (.drw 0 1 5) State.reset = .next t ∧ t.i = State.reset.i ∧ t.getV 0 = State.reset.getV 0 ∧
      t.getV 1 = State.reset.getV 1 ∧ (∀ a, t.readByte a = State.reset.readByte a) ∧ ∃ u, exec (.drw 0 1 5) t = .next u :=
  ⟨by decide, _, rfl, rfl, by decide, by decide, fun _ => rfl, exec_next _ _⟩

/-- RET with nothing saved, as a STEP. -/
theorem witness_FaultsArePrecise : ∃ s' t, NextEvent (placed 0x00EE State.reset) (.step 0xA7 0xFFFF) s' ∧
    step (placed 0x00EE State.reset) = .next t ∧ (placed 0x00EE State.reset).status ≠ .faulted ∧ t.status = .faulted :=
  ⟨_, _, .listed _ _ _ rfl, rfl, by decide, rfl⟩

/-- A stack fault and a range fault. -/
theorem witness_EachInstructionHasOneFault :
    (∃ t, exec .ret State.reset = .next t ∧ State.reset.status ≠ .faulted ∧ t.status = .faulted) ∧
    (∃ t, exec (.ldBVx 0) { State.reset with i := 0xFFE } = .next t ∧ t.status = .faulted) :=
  ⟨⟨_, rfl, by decide, rfl⟩, ⟨_, rfl, rfl⟩⟩

/-- A jump, and a fault, which keeps `pc`. -/
theorem witness_OnlyTransfersSetThePc :
    (∃ t, exec (.jp 0xABC) State.reset = .next t ∧ t.pc ≠ State.reset.pc + 2) ∧
    (∃ t, exec (.ldBVx 0) { State.reset with i := 0xFFE } = .next t ∧ t.pc ≠ State.reset.pc + 2) :=
  ⟨⟨_, rfl, by decide⟩, ⟨_, rfl, by decide⟩⟩

theorem witness_OnlyBcdAndStoreWriteMemory :
    ∃ t, exec (.ldBVx 5) { regs [(5, 0xEA)] with i := 0x300 } = .next t ∧
      t.readByte 0x300 ≠ ({ regs [(5, 0xEA)] with i := 0x300 } : State).readByte 0x300 :=
  ⟨_, rfl, by decide⟩

theorem witness_OnlyClearAndDrawTouchTheFramebuffer :
    ∃ s' t, NextEvent (placed 0xD015 State.reset) (.step 0xA7 0xFFFF) s' ∧ step (placed 0xD015 State.reset) = .next t ∧
      t.fb ≠ (placed 0xD015 State.reset).fb :=
  ⟨_, _, .listed _ _ _ rfl, rfl, by decide⟩

theorem witness_PixelsReachNothingButCollision :
    (∀ x y n, Instr.cls ≠ .drw x y n) ∧ ∃ t, exec .cls State.reset = .next t :=
  ⟨fun _ _ _ h => (by cases h), exec_next _ _⟩

theorem witness_OnlyCallAndReturnMoveTheStackPointer :
    ∃ s' t, NextEvent (placed 0x2300 State.reset) (.step 0xA7 0xFFFF) s' ∧ step (placed 0x2300 State.reset) = .next t ∧
      t.sp ≠ (placed 0x2300 State.reset).sp :=
  ⟨_, _, .listed _ _ _ rfl, rfl, by decide⟩

/-- One case for each timer. -/
theorem witness_OnlyTheirWritersChangeTheTimers :
    (∃ s' t, NextEvent (placed 0xF015 (regs [(0, 5)])) (.step 0xA7 0xFFFF) s' ∧ step (placed 0xF015 (regs [(0, 5)])) = .next t ∧
      t.dt ≠ (placed 0xF015 (regs [(0, 5)])).dt) ∧
    (∃ s' t, NextEvent (placed 0xF018 (regs [(0, 5)])) (.step 0xA7 0xFFFF) s' ∧ step (placed 0xF018 (regs [(0, 5)])) = .next t ∧
      t.st ≠ (placed 0xF018 (regs [(0, 5)])).st) :=
  ⟨⟨_, _, .listed _ _ _ rfl, rfl, by decide⟩, ⟨_, _, .listed _ _ _ rfl, rfl, by decide⟩⟩

theorem witness_RegistersWrittenAreThoseOfTheTable :
    ∃ t, exec (.addVxVy 0 1) (regs [(0, 0xFF), (1, 0x02)]) = .next t ∧ t.getV 0xF ≠ (regs [(0, 0xFF), (1, 0x02)]).getV 0xF :=
  ⟨_, rfl, by decide⟩

theorem witness_InstructionsLeaveTheHostSideAlone : ∃ t, exec (.rnd 0 0xFF) State.reset = .next t := exec_next _ _

/-- Two states that differ in a dead stack entry and in `wait_x`. -/
theorem witness_DeadElementsAreNeverRead :
    let s₂ : State := { State.reset with stack := State.reset.stack.set 0 0xBEEF, waitX := 7 }
    SameLive State.reset s₂ ∧ s₂ ≠ State.reset ∧ ∃ t, step State.reset = .next t :=
  ⟨⟨rfl, fun j hj => absurd hj (Nat.not_lt_zero _), fun h => (by cases h)⟩, by decide, _, rfl⟩

/-- A machine in the key wait meets the invariant, and a step of it answers a next state. -/
theorem witness_EveryStepKeepsTheInvariant :
    (waiting 0x204 [.key 3]).Inv ∧ ∃ t, step (waiting 0x204 [.key 3]) = .next t := by
  refine ⟨?_, _, rfl⟩
  constructor
  · decide
  · decide
  · decide
  · intro _; decide
  · intro h; exact absurd h (by decide)
  · decide

theorem witness_NoEventStopsTheMachine :
    (waiting 0x204 [.abort]).Inv ∧ (waiting 0x204 [.abort]).loadable := by
  refine ⟨?_, fun image h => absurd h (by simp [waiting])⟩
  constructor
  · decide
  · decide
  · decide
  · intro _; decide
  · intro h; exact absurd h (by decide)
  · decide

theorem witness_PlacedWordRunsNext : (Instr.drw 0 1 5).wf = true := by decide

end Sys2Proof.Tests
end

section
/-! The illegal word of a STEP (40_cycle.md R104): the word of two bytes as a number, and `takeStep` on a word that decodes to no
instruction. -/

namespace Sys2Proof.Machine

/-- The byte at the lower address is the high one (R64). -/
theorem toNat_wordOfBytes (b0 b1 : Byte) : (wordOfBytes b0 b1).toNat = b0.toNat * 256 + b1.toNat := by
  show (b0 ++ b1).toNat = _
  rw [BitVec.toNat_append, ← Nat.shiftLeft_add_eq_or_of_lt b1.isLt, Nat.shiftLeft_eq]

/-- A number made of the two bytes at `pc`, high byte first, is that of the word fetched (R64, R103). -/
theorem State.fetchWord_eq_of_toNat {s : State} {w : Word}
    (hw : w.toNat = (s.readByte s.pc.toNat).toNat * 256 + (s.readByte (s.pc.toNat + 1)).toNat) : s.fetchWord = w :=
  BitVec.eq_of_toNat_eq ((toNat_wordOfBytes _ _).trans hw.symm)

/-- The address of an instruction that can be fetched passes both checks on `pc` (R102, R103). -/
theorem State.canFetch.pc_checks {s : State} (hf : s.canFetch) : inProgramRegion s.pc = true ∧ s.pc ≠ 0xFFF := by
  obtain ⟨low, high⟩ := hf
  constructor
  · rw [inProgramRegion, Bool.and_eq_true, decide_eq_true_eq, decide_eq_true_eq]
    omega
  · intro hp
    rw [hp] at high
    exact absurd high (by decide)

/-- R104: of the five things a STEP can do, the only one left for an illegal word in `RUNNING`. -/
theorem takeStep_of_illegal {s : State} {e : DecodeError} (hs : s.status = .running) (hf : s.canFetch)
    (hd : decode s.fetchWord = .error e) : takeStep s = .next (s.raise .unknownOpcode s.fetchWord 0) := by
  obtain ⟨hregion, hlast⟩ := hf.pc_checks
  rcases takeStep_cases s with
    ⟨notRunning, -⟩ | ⟨-, outside, -⟩ | ⟨-, last, -⟩ | ⟨-, -, -, -, illegal⟩ | ⟨-, -, i, legal, -⟩
  · exact absurd hs notRunning
  · simp [hregion] at outside
  · exact absurd last hlast
  · exact illegal
  · simp [hd] at legal

end Sys2Proof.Machine

open Sys2Proof Sys2Proof.Machine

/-- Settles O9: the STEP fetches `w` in the state it acts on, which has the `status`, `pc` and memory of the state before. -/
theorem illegalWordRaisesUnknownOpcode : Obligations.IllegalWordRaisesUnknownOpcode := by
  intro s s' r kd w e next running canFetch hw illegal
  have same : SameArch s s' := next.sameArch
  have fetched : s'.fetchWord = w := same.fetchWord.trans (State.fetchWord_eq_of_toNat hw)
  have raised : takeStep s' = .next (s'.raise .unknownOpcode w 0) := by
    rw [← fetched] at illegal ⊢
    exact takeStep_of_illegal (same.status.trans running) (by rwa [State.canFetch, same.pc]) illegal
  exact ⟨_, (step_of_stepNext next).trans raised, State.raise_faults ..⟩

end

section
/-! Control transfer (41_control_flow.md): the frame of a write to `pc`, and what `0nnn` (R121) and `1nnn` (R122) answer. -/

namespace Sys2Proof.Machine

/-- Every frame holds of a state and itself. -/
theorem Keeps.refl (may : MayChange) (s : State) : Keeps may s s := by constructor <;> simp

/-- No frame speaks of `pc`, so a write to it keeps every frame. -/
theorem Keeps.setPc {may : MayChange} {s t : State} (h : Keeps may s t) (w : Word) : Keeps may s (t.setPc w) := { h with }

/-- Zero extension keeps the number (R82). -/
@[simp] theorem toNat_addrWord (nnn : Addr) : (addrWord nnn).toNat = nnn.toNat :=
  BitVec.toNat_setWidth_of_le (by decide)

theorem exec_sys (nnn : Addr) (s : State) : exec (.sys nnn) s = .next (s.setPc (s.pc + 2)) := rfl

theorem exec_jp (nnn : Addr) (s : State) : exec (.jp nnn) s = .next (s.setPc (addrWord nnn)) := rfl

end Sys2Proof.Machine

open Sys2Proof Sys2Proof.Machine

/-- Settles O19: each of the two instructions is one write to `pc`, which every frame allows. -/
theorem sysAndJumpTakeTheirEffect : Obligations.SysAndJumpTakeTheirEffect := by
  intro s nnn
  have writesOnlyPc (w : Word) : Keeps {} s (s.setPc w) := (Keeps.refl {} s).setPc w
  constructor
  · exact ⟨_, exec_sys nnn s, s.setPc_pc _, writesOnlyPc _⟩
  · exact ⟨_, exec_jp nnn s, toNat_addrWord nnn, writesOnlyPc _⟩

end

section
/-! The skips (42_skips.md): what a skip does whatever its condition, and the condition of each skip on register values
(R140 to R143). -/

namespace Sys2Proof.Machine

/-- A skip whose test `taken` decides `P`: one write to `pc`, by 4 or by 2. -/
theorem exec_of_skipIf {i : Instr} {s : State} {taken : Bool} {P : Prop} [Decidable P]
    (skips : exec i s = .next (s.skipIf taken)) (decides : taken = true ↔ P) :
    ∃ t, exec i s = .next t ∧ t.pc = (if P then s.pc + 4 else s.pc + 2) ∧ Keeps {} s t :=
  ⟨_, skips, if_congr decides rfl rfl, (Keeps.refl {} s).setPc _⟩

theorem exec_seVxKk (x : Reg) (kk : Byte) (s : State) :
    exec (.seVxKk x kk) s = .next (s.skipIf (s.getV x == kk)) := rfl

theorem exec_sneVxKk (x : Reg) (kk : Byte) (s : State) :
    exec (.sneVxKk x kk) s = .next (s.skipIf (s.getV x != kk)) := rfl

theorem exec_seVxVy (x y : Reg) (s : State) :
    exec (.seVxVy x y) s = .next (s.skipIf (s.getV x == s.getV y)) := rfl

theorem exec_sneVxVy (x y : Reg) (s : State) :
    exec (.sneVxVy x y) s = .next (s.skipIf (s.getV x != s.getV y)) := rfl

end Sys2Proof.Machine

open Sys2Proof Sys2Proof.Machine

/-- Settles O24: each of the four is a skip, whose Boolean test decides the equality or the inequality the statement names. -/
theorem skipsOnRegisterValues : Obligations.SkipsOnRegisterValues := by
  intro s x y kk
  refine ⟨?seVxKk, ?sneVxKk, ?seVxVy, ?sneVxVy⟩
  case seVxKk => exact exec_of_skipIf (exec_seVxKk x kk s) beq_iff_eq
  case sneVxKk => exact exec_of_skipIf (exec_sneVxKk x kk s) bne_iff_ne
  case seVxVy => exact exec_of_skipIf (exec_seVxVy x y s) beq_iff_eq
  case sneVxVy => exact exec_of_skipIf (exec_sneVxVy x y s) bne_iff_ne

end

section
/-! Register arithmetic and logic without a flag (43_alu.md): the frame of a write to a register, what writing a result does whatever
the result, and the result of `6xkk`, `7xkk` and `8xy0` (R160 to R162). -/

namespace Sys2Proof.Machine

/-- A write to a register that the frame names keeps the frame. -/
theorem Keeps.setV {may : MayChange} {s t : State} {x : Reg} (h : Keeps may s t) (named : may.regs x) (b : Byte) :
    Keeps may s (t.setV x b) :=
  { h with
    regs := fun r unnamed =>
      have other : r ≠ x := fun e => unnamed (e ▸ named)
      (t.getV_setV_other b other).trans (h.regs r unnamed) }

/-- An instruction that writes `result` to `V[x]` and no flag. VF has no case of its own: it is kept as any register other than
`V[x]` is. -/
theorem exec_of_writeResult {i : Instr} {s : State} {x : Reg} {result : Byte} (writes : exec i s = writeResult x result s) :
    ∃ t, exec i s = .next t ∧ t.getV x = result ∧ t.pc = s.pc + 2 ∧ Keeps { regs := (· = x) } s t :=
  ⟨_, writes, s.getV_setV_same x result, rfl, ((Keeps.refl _ s).setV rfl result).setPc _⟩

theorem exec_ldVxKk (x : Reg) (kk : Byte) (s : State) : exec (.ldVxKk x kk) s = writeResult x kk s := rfl

theorem exec_addVxKk (x : Reg) (kk : Byte) (s : State) : exec (.addVxKk x kk) s = writeResult x (s.getV x + kk) s := rfl

theorem exec_ldVxVy (x y : Reg) (s : State) : exec (.ldVxVy x y) s = writeResult x (s.getV y) s := rfl

end Sys2Proof.Machine

open Sys2Proof Sys2Proof.Machine

/-- Settles O26: each of the three writes one result to `V[x]`; that of `7xkk` is a byte sum, which as a number is the sum modulo
256. -/
theorem loadsAndImmediateAdd : Obligations.LoadsAndImmediateAdd := by
  intro s x y kk
  refine ⟨?ldVxKk, ?addVxKk, ?ldVxVy⟩
  case ldVxKk => exact exec_of_writeResult (exec_ldVxKk x kk s)
  case addVxKk =>
    obtain ⟨t, runs, sum, advanced, kept⟩ := exec_of_writeResult (exec_addVxKk x kk s)
    have sumNat : (t.getV x).toNat = ((s.getV x).toNat + kk.toNat) % 256 := by rw [sum, BitVec.toNat_add]
    exact ⟨t, runs, sumNat, advanced, kept⟩
  case ldVxVy => exact exec_of_writeResult (exec_ldVxVy x y s)

end

section
/-! The index register (44_index_memory.md): the frame of a write to `I`, and what `Annn` answers (R190). -/

namespace Sys2Proof.Machine

/-- A write to `I` keeps every frame that names `I`. -/
theorem Keeps.setI {may : MayChange} {s t : State} (h : Keeps may s t) (named : may.index = true) (w : Word) :
    Keeps may s (t.setI w) :=
  { h with index := fun unnamed => absurd (named.symm.trans unnamed) (by decide) }

theorem exec_ldI (nnn : Addr) (s : State) : exec (.ldI nnn) s = .next (s.setI (addrWord nnn)).advance := rfl

end Sys2Proof.Machine

open Sys2Proof Sys2Proof.Machine

/-- Settles O33: one write to `I`, of the zero-extended operand, and then one to `pc`. -/
theorem loadIndexImmediate : Obligations.LoadIndexImmediate := by
  intro s nnn
  have loaded : (s.setI (addrWord nnn)).advance.i.toNat = nnn.toNat := toNat_addrWord nnn
  have kept : Keeps { index := true } s (s.setI (addrWord nnn)) := (Keeps.refl _ s).setI rfl _
  exact ⟨_, exec_ldI nnn s, loaded, rfl, kept.setPc _⟩

end

section
/-! The clear screen (45_display.md): the frame of showing a grid, and what `00E0` answers (R212). -/

namespace Sys2Proof.Machine

/-- The pixels after a grid is shown are those of the grid, whatever they were before (R30). -/
@[simp] theorem State.pixel_showFrame (s : State) (f : Framebuffer) (px : Fin 64) (py : Fin 32) :
    (s.showFrame f).pixel px py = framePixel f px py := rfl

/-- Showing a grid keeps every frame that names the framebuffer and the updates sent. -/
theorem Keeps.showFrame {may : MayChange} {s t : State} (h : Keeps may s t) (fbNamed : may.fb = true)
    (updatesNamed : may.updates = true) (f : Framebuffer) : Keeps may s (t.showFrame f) :=
  { h with
    fb := fun unnamed => absurd (fbNamed.symm.trans unnamed) (by decide)
    updates := fun unnamed => absurd (updatesNamed.symm.trans unnamed) (by decide) }

theorem exec_cls (s : State) : exec .cls s = .next ((s.showFrame clearFrame).setPc (s.pc + 2)) := rfl

end Sys2Proof.Machine

open Sys2Proof Sys2Proof.Machine

/-- Settles O40: the clear screen is shown, which sends it as the one update, and then `pc` is written. -/
theorem clearScreenClearsEveryPixel : Obligations.ClearScreenClearsEveryPixel := by
  intro s
  have cleared (qx : Fin 64) (qy : Fin 32) : ((s.showFrame clearFrame).setPc (s.pc + 2)).pixel qx qy = false := by
    rw [State.pixel_setPc, State.pixel_showFrame, framePixel_clear]
  have sent : ((s.showFrame clearFrame).setPc (s.pc + 2)).fbUpdates = s.fbUpdates ++ [clearFrame] := by
    rw [State.setPc_fbUpdates, State.showFrame_fbUpdates]
  have kept : Keeps { fb := true, updates := true } s (s.showFrame clearFrame) := (Keeps.refl _ s).showFrame rfl rfl _
  exact ⟨_, exec_cls s, cleared, sent, State.setPc_pc .., kept.setPc _⟩

end

section
/-! The decoder (30_encoding.md sections 1 to 4): decoding is the opcode map R84 read as a relation; what a row selects is the word
the encoder writes; and which words no row selects (R91). -/

namespace Sys2Proof

variable {w : Word} {i : Instr}

/-! ## From the decoder to the map, family by family -/

theorem decode0_selected (op : opField w = 0x0) : (decode0 w).selectedBy w := by
  unfold decode0
  split
  · assumption
  · split
    · assumption
    · exact ⟨op, ‹_›, ‹_›, rfl⟩

theorem decode5_selected (op : opField w = 0x5) (h : decode5 w = .ok i) : i.selectedBy w := by
  unfold decode5 at h
  split at h
  · cases h; exact ⟨op, ‹_›, rfl, rfl⟩
  · cases h

theorem decode8_selected (op : opField w = 0x8) (h : decode8 w = .ok i) : i.selectedBy w := by
  unfold decode8 at h
  split at h
  all_goals cases h
  all_goals exact ⟨op, BitVec.eq_of_toNat_eq ‹_›, rfl, rfl⟩

theorem decode9_selected (op : opField w = 0x9) (h : decode9 w = .ok i) : i.selectedBy w := by
  unfold decode9 at h
  split at h
  · cases h; exact ⟨op, ‹_›, rfl, rfl⟩
  · cases h

theorem decodeE_selected (op : opField w = 0xE) (h : decodeE w = .ok i) : i.selectedBy w := by
  unfold decodeE at h
  split at h
  all_goals cases h
  all_goals exact ⟨op, BitVec.eq_of_toNat_eq ‹_›, rfl⟩

theorem decodeF_selected (op : opField w = 0xF) (h : decodeF w = .ok i) : i.selectedBy w := by
  unfold decodeF at h
  split at h
  all_goals cases h
  all_goals exact ⟨op, BitVec.eq_of_toNat_eq ‹_›, rfl⟩

/-- A 4-bit field that is none of 0 to 14 is 15: the last row of `decode`'s match. -/
theorem opField_eq_F_of_ne (h : ∀ k < 15, (opField w).toNat ≠ k) : opField w = 0xF := by
  have le : ¬ (opField w).toNat < 15 := fun lt => h _ lt rfl
  have lt := (opField w).isLt
  exact BitVec.eq_of_toNat_eq (show (opField w).toNat = 15 by omega)

theorem decode_selected (h : decode w = .ok i) : i.selectedBy w := by
  unfold decode at h
  split at h
  case h_1 op => cases h; exact decode0_selected (BitVec.eq_of_toNat_eq op)
  case h_6 op => exact decode5_selected (BitVec.eq_of_toNat_eq op) h
  case h_9 op => exact decode8_selected (BitVec.eq_of_toNat_eq op) h
  case h_10 op => exact decode9_selected (BitVec.eq_of_toNat_eq op) h
  case h_15 op => exact decodeE_selected (BitVec.eq_of_toNat_eq op) h
  case h_16 =>
    refine decodeF_selected (opField_eq_F_of_ne fun k hk e => ?_) h
    interval_cases k <;> contradiction
  case h_14 op => cases h; exact ⟨BitVec.eq_of_toNat_eq op, rfl, rfl, rfl⟩
  case h_2 op | h_3 op | h_11 op | h_12 op => cases h; exact ⟨BitVec.eq_of_toNat_eq op, rfl⟩
  case h_4 op | h_5 op | h_7 op | h_8 op | h_13 op => cases h; exact ⟨BitVec.eq_of_toNat_eq op, rfl, rfl⟩

/-! ## From the map to the decoder -/

theorem decode_of_selectedBy (h : i.selectedBy w) : decode w = .ok i := by
  cases i
  case cls | ret => cases h; decide
  case sys =>
    obtain ⟨op, notCls, notRet, rfl⟩ := h
    have family : decode w = .ok (decode0 w) := by simp [decode, op]
    rw [family, decode0, if_neg notCls, if_neg notRet]
  case jp | call | ldI | jpV0 => obtain ⟨op, rfl⟩ := h; simp [decode, op]
  case seVxKk | sneVxKk | ldVxKk | addVxKk | rnd => obtain ⟨op, rfl, rfl⟩ := h; simp [decode, op]
  case drw => obtain ⟨op, rfl, rfl, rfl⟩ := h; simp [decode, op]
  case seVxVy => obtain ⟨op, n, rfl, rfl⟩ := h; simp [decode, decode5, op, n]
  case sneVxVy => obtain ⟨op, n, rfl, rfl⟩ := h; simp [decode, decode9, op, n]
  case ldVxVy | orVxVy | andVxVy | xorVxVy | addVxVy | sub | shr | subn | shl =>
    obtain ⟨op, n, rfl, rfl⟩ := h; simp [decode, decode8, op, n]
  case skp | sknp => obtain ⟨op, kk, rfl⟩ := h; simp [decode, decodeE, op, kk]
  case ldVxDt | ldVxK | ldDtVx | ldStVx | addIVx | ldFVx | ldBVx | ldMemVx | ldVxMem =>
    obtain ⟨op, kk, rfl⟩ := h; simp [decode, decodeF, op, kk]

theorem decode_eq_ok_iff (w : Word) (i : Instr) : decode w = .ok i ↔ i.selectedBy w :=
  ⟨decode_selected, decode_of_selectedBy⟩

/-! ## The word of an instruction is the word its row selects -/

theorem addr_word_of_fields {o : BitVec 4} (op : opField w = o) : (o ++ nnnField w : Word) = w :=
  op ▸ word_of_addr_fields w

theorem byte_word_of_fields {o : BitVec 4} {kk : Byte} (op : opField w = o) (hkk : kkField w = kk) :
    (o ++ xField w ++ kk : Word) = w := op ▸ hkk ▸ word_of_byte_fields w

theorem nibble_word_of_fields {o n : BitVec 4} (op : opField w = o) (hn : nField w = n) :
    (o ++ xField w ++ yField w ++ n : Word) = w := op ▸ hn ▸ word_of_nibble_fields w

theorem Instr.encode_of_selectedBy (h : i.selectedBy w) : encode i = w := by
  cases i
  case cls | ret => exact h.symm
  case sys => obtain ⟨op, -, -, rfl⟩ := h; exact addr_word_of_fields op
  case jp | call | ldI | jpV0 => obtain ⟨op, rfl⟩ := h; exact addr_word_of_fields op
  case seVxKk | sneVxKk | ldVxKk | addVxKk | rnd => obtain ⟨op, rfl, rfl⟩ := h; exact byte_word_of_fields op rfl
  case drw => obtain ⟨op, rfl, rfl, rfl⟩ := h; exact nibble_word_of_fields op rfl
  case seVxVy | sneVxVy | ldVxVy | orVxVy | andVxVy | xorVxVy | addVxVy | sub | shr | subn | shl =>
    obtain ⟨op, n, rfl, rfl⟩ := h; exact nibble_word_of_fields op n
  case skp | sknp | ldVxDt | ldVxK | ldDtVx | ldStVx | addIVx | ldFVx | ldBVx | ldMemVx | ldVxMem =>
    obtain ⟨op, kk, rfl⟩ := h; exact byte_word_of_fields op kk

/-- Only SYS has operands that no word stands for (R85), and those the encoder maps to the words of CLS and RET. -/
theorem Instr.wf_of_selectedBy (h : i.selectedBy w) : i.wf = true := by
  cases i
  case sys nnn =>
    have word : (0x0#4 ++ nnn : Word) = w := Instr.encode_of_selectedBy h
    obtain ⟨-, notCls, notRet, -⟩ := h
    rw [Instr.wf, Bool.and_eq_true, bne_iff_ne, bne_iff_ne]
    constructor
    · rintro rfl; exact notCls word.symm
    · rintro rfl; exact notRet word.symm
  all_goals rfl

/-- The encoder's word meets the row of its instruction: the lemma of Laws/PerInstr.lean for each constructor. -/
theorem Instr.selectedBy_encode (wf : i.wf = true) : i.selectedBy (encode i) := by
  cases i
  case cls => exact Laws.Selection.cls wf
  case ret => exact Laws.Selection.ret wf
  case sys => exact Laws.Selection.sys _ wf
  case jp => exact Laws.Selection.jp _ wf
  case call => exact Laws.Selection.call _ wf
  case seVxKk => exact Laws.Selection.seVxKk _ _ wf
  case sneVxKk => exact Laws.Selection.sneVxKk _ _ wf
  case seVxVy => exact Laws.Selection.seVxVy _ _ wf
  case ldVxKk => exact Laws.Selection.ldVxKk _ _ wf
  case addVxKk => exact Laws.Selection.addVxKk _ _ wf
  case ldVxVy => exact Laws.Selection.ldVxVy _ _ wf
  case orVxVy => exact Laws.Selection.orVxVy _ _ wf
  case andVxVy => exact Laws.Selection.andVxVy _ _ wf
  case xorVxVy => exact Laws.Selection.xorVxVy _ _ wf
  case addVxVy => exact Laws.Selection.addVxVy _ _ wf
  case sub => exact Laws.Selection.sub _ _ wf
  case shr => exact Laws.Selection.shr _ _ wf
  case subn => exact Laws.Selection.subn _ _ wf
  case shl => exact Laws.Selection.shl _ _ wf
  case sneVxVy => exact Laws.Selection.sneVxVy _ _ wf
  case ldI => exact Laws.Selection.ldI _ wf
  case jpV0 => exact Laws.Selection.jpV0 _ wf
  case rnd => exact Laws.Selection.rnd _ _ wf
  case drw => exact Laws.Selection.drw _ _ _ wf
  case skp => exact Laws.Selection.skp _ wf
  case sknp => exact Laws.Selection.sknp _ wf
  case ldVxDt => exact Laws.Selection.ldVxDt _ wf
  case ldVxK => exact Laws.Selection.ldVxK _ wf
  case ldDtVx => exact Laws.Selection.ldDtVx _ wf
  case ldStVx => exact Laws.Selection.ldStVx _ wf
  case addIVx => exact Laws.Selection.addIVx _ wf
  case ldFVx => exact Laws.Selection.ldFVx _ wf
  case ldBVx => exact Laws.Selection.ldBVx _ wf
  case ldMemVx => exact Laws.Selection.ldMemVx _ wf
  case ldVxMem => exact Laws.Selection.ldVxMem _ wf

theorem decode_encode (wf : i.wf = true) : decode (encode i) = .ok i :=
  decode_of_selectedBy (Instr.selectedBy_encode wf)

/-! ## The words no row selects -/

theorem decode5_error_iff : (∃ e, decode5 w = .error e) ↔ nField w ≠ 0 := by
  unfold decode5
  split
  case isTrue zero => exact iff_of_false (by rintro ⟨_, ⟨⟩⟩) (not_not_intro zero)
  case isFalse nonzero => exact iff_of_true ⟨_, rfl⟩ nonzero

theorem decode9_error_iff : (∃ e, decode9 w = .error e) ↔ nField w ≠ 0 := by
  unfold decode9
  split
  case isTrue zero => exact iff_of_false (by rintro ⟨_, ⟨⟩⟩) (not_not_intro zero)
  case isFalse nonzero => exact iff_of_true ⟨_, rfl⟩ nonzero

theorem decode8_error_iff :
    (∃ e, decode8 w = .error e) ↔ nField w ∈ ([0x8, 0x9, 0xA, 0xB, 0xC, 0xD, 0xF] : List Nibble) := by
  unfold decode8
  split
  case h_10 =>
    refine iff_of_true ⟨_, rfl⟩ ?_
    have lt := (nField w).isLt
    simp only [imp_false, List.mem_cons, List.not_mem_nil, or_false, ← BitVec.toNat_inj, BitVec.ofNat_eq_ofNat, BitVec.toNat_ofNat] at *
    omega
  all_goals
    rename (nField w).toNat = _ => n
    refine iff_of_false (by rintro ⟨_, ⟨⟩⟩) ?_
    simp [← BitVec.toNat_inj, n]

theorem decodeE_error_iff : (∃ e, decodeE w = .error e) ↔ kkField w ∉ ([0x9E, 0xA1] : List Byte) := by
  unfold decodeE
  split
  case h_3 => exact iff_of_true ⟨_, rfl⟩ (by simp_all [← BitVec.toNat_inj])
  all_goals
    rename (kkField w).toNat = _ => kk
    refine iff_of_false (by rintro ⟨_, ⟨⟩⟩) ?_
    simp [← BitVec.toNat_inj, kk]

theorem decodeF_error_iff : (∃ e, decodeF w = .error e) ↔
    kkField w ∉ ([0x07, 0x0A, 0x15, 0x18, 0x1E, 0x29, 0x33, 0x55, 0x65] : List Byte) := by
  unfold decodeF
  split
  case h_10 => exact iff_of_true ⟨_, rfl⟩ (by simp_all [← BitVec.toNat_inj])
  all_goals
    rename (kkField w).toNat = _ => kk
    refine iff_of_false (by rintro ⟨_, ⟨⟩⟩) ?_
    simp [← BitVec.toNat_inj, kk]

/-- Outside the five families with sub-opcodes every word is legal. -/
theorem decode_ok_of_no_family (h5 : opField w ≠ 0x5) (h8 : opField w ≠ 0x8) (h9 : opField w ≠ 0x9) (hE : opField w ≠ 0xE)
    (hF : opField w ≠ 0xF) : ∃ i, decode w = .ok i := by
  unfold decode
  split
  case h_6 op => exact absurd (BitVec.eq_of_toNat_eq op) h5
  case h_9 op => exact absurd (BitVec.eq_of_toNat_eq op) h8
  case h_10 op => exact absurd (BitVec.eq_of_toNat_eq op) h9
  case h_15 op => exact absurd (BitVec.eq_of_toNat_eq op) hE
  case h_16 =>
    refine absurd (opField_eq_F_of_ne fun k hk e => ?_) hF
    interval_cases k <;> contradiction
  all_goals exact ⟨_, rfl⟩

end Sys2Proof

open Sys2Proof Sys2Proof.Machine

/-- Settles O3: the word of a well-formed instruction is selected by its row, so it decodes to it; its two bytes make that word
again. -/
theorem decodeOfEncodeIsIdentity : Obligations.DecodeOfEncodeIsIdentity := by
  intro i wf
  refine ⟨decode_encode wf, fun rest => ?_⟩
  show decodeBytes (highByte (encode i) :: lowByte (encode i) :: rest) = _
  rw [decodeBytes, wordOfBytes_bytes, decode_encode wf]

/-- Settles O2: from the decoder to the map by families, from the map to the decoder row by row. -/
theorem decodeFollowsTheOpcodeMap : Obligations.DecodeFollowsTheOpcodeMap := decode_eq_ok_iff

/-- Settles O4: the row that selects a word fixes every field of it. -/
theorem encodeOfDecodeIsTheWord : Obligations.EncodeOfDecodeIsTheWord := fun _ _ legal =>
  have selected := decode_selected legal
  ⟨Instr.wf_of_selectedBy selected, Instr.encode_of_selectedBy selected⟩

/-- Settles O5: the error of each family, and none outside the five families. -/
theorem illegalWordsAreTheFiveGroups : Obligations.IllegalWordsAreTheFiveGroups := by
  intro w
  by_cases h5 : opField w = 0x5
  · have family : decode w = decode5 w := by simp [decode, h5]
    simp [family, decode5_error_iff, h5]
  by_cases h8 : opField w = 0x8
  · have family : decode w = decode8 w := by simp [decode, h8]
    simp [family, decode8_error_iff, h8]
  by_cases h9 : opField w = 0x9
  · have family : decode w = decode9 w := by simp [decode, h9]
    simp [family, decode9_error_iff, h9]
  by_cases hE : opField w = 0xE
  · have family : decode w = decodeE w := by simp [decode, hE]
    simp [family, decodeE_error_iff, hE]
  by_cases hF : opField w = 0xF
  · have family : decode w = decodeF w := by simp [decode, hF]
    simp [family, decodeF_error_iff, hF]
  obtain ⟨i, legal⟩ := decode_ok_of_no_family h5 h8 h9 hE hF
  refine iff_of_false (by rw [legal]; rintro ⟨_, ⟨⟩⟩) ?_
  rintro (⟨op, -⟩ | ⟨op, -⟩ | ⟨op, -⟩ | ⟨op, -⟩ | ⟨op, -⟩) <;> contradiction

/-- Settles O1: fifteen closed words, each decoded by computation. -/
theorem writtenOutWordsDecode : Obligations.WrittenOutWordsDecode := by
  unfold Obligations.WrittenOutWordsDecode
  decide

end

section
/-! The frame of every update of the state, and the frame of every instruction: what it may write where it raises no fault. The sections
above have the frames of a write to a register, to `I` and to `pc`, and of showing a grid. -/

namespace Sys2Proof.Machine

variable {may : MayChange} {s t : State}

/-! ## Frames of the updates -/

theorem Keeps.setAllV (h : Keeps may s t) {v : Vector Byte 16}
    (named : ∀ r : Reg, ¬ may.regs r → v[r.toNat]'r.isLt = t.getV r) : Keeps may s (t.setAllV v) :=
  { h with regs := fun r unnamed => (named r unnamed).trans (h.regs r unnamed) }

theorem Keeps.push (h : Keeps may s t) (named : may.sp = true) (entry : ∀ j : Fin 16, j.val = t.sp.val → may.stack j) (w : Word)
    (notFull : t.sp.val < 16) : Keeps may s (t.push w notFull) :=
  { h with
    sp := fun unnamed => absurd (named.symm.trans unnamed) (by decide)
    stack := fun j unnamed => by
      rw [t.push_stack_at, if_neg (fun e => unnamed (entry j e)), h.stack j unnamed] }

theorem Keeps.pop (h : Keeps may s t) (named : may.sp = true) : Keeps may s t.pop :=
  { h with sp := fun unnamed => absurd (named.symm.trans unnamed) (by decide) }

theorem Keeps.setDt (h : Keeps may s t) (named : may.dt = true) (b : Byte) : Keeps may s (t.setDt b) :=
  { h with dt := fun unnamed => absurd (named.symm.trans unnamed) (by decide) }

theorem Keeps.setSt (h : Keeps may s t) (named : may.st = true) (b : Byte) : Keeps may s (t.setSt b) :=
  { h with st := fun unnamed => absurd (named.symm.trans unnamed) (by decide) }

theorem Keeps.storeBytes (h : Keeps may s t) {a : Nat} {bs : List Byte}
    (named : ∀ a', a ≤ a' → a' < a + bs.length → may.bytes a') : Keeps may s (t.storeBytes a bs) :=
  { h with
    bytes := fun a' unnamed => by
      have outside : a' < a ∨ a + bs.length ≤ a' := by
        by_contra inside
        exact unnamed (named a' (by omega) (by omega))
      rw [t.readByte_storeBytes_outside a bs a' outside, h.bytes a' unnamed] }

theorem Keeps.setStatus (h : Keeps may s t) (named : may.status = true) (c : Status) : Keeps may s (t.setStatus c) :=
  { h with status := fun unnamed => absurd (named.symm.trans unnamed) (by decide) }

theorem Keeps.enterWait (h : Keeps may s t) (statusNamed : may.status = true) (waitNamed : may.waitX = true) (x : Reg) :
    Keeps may s (t.enterWait x) :=
  { h with
    status := fun unnamed => absurd (statusNamed.symm.trans unnamed) (by decide)
    waitX := fun unnamed => absurd (waitNamed.symm.trans unnamed) (by decide) }

/-! ## What an instruction answers -/

theorem exec_jpV0 (nnn : Addr) (s : State) : exec (.jpV0 nnn) s = .next (s.setPc (byteWord (s.getV 0) + addrWord nnn)) := rfl
theorem exec_skp (x : Reg) (s : State) : exec (.skp x) s = .next (s.skipIf (s.isKeyDown x)) := rfl
theorem exec_sknp (x : Reg) (s : State) : exec (.sknp x) s = .next (s.skipIf (!s.isKeyDown x)) := rfl
theorem exec_orVxVy (x y : Reg) (s : State) : exec (.orVxVy x y) s = writeResult x (s.getV x ||| s.getV y) s := rfl
theorem exec_andVxVy (x y : Reg) (s : State) : exec (.andVxVy x y) s = writeResult x (s.getV x &&& s.getV y) s := rfl
theorem exec_xorVxVy (x y : Reg) (s : State) : exec (.xorVxVy x y) s = writeResult x (s.getV x ^^^ s.getV y) s := rfl
theorem exec_addVxVy (x y : Reg) (s : State) :
    exec (.addVxVy x y) s = writeResultFlag x (s.getV x + s.getV y) (carry (s.getV x) (s.getV y)) s := rfl
theorem exec_sub (x y : Reg) (s : State) :
    exec (.sub x y) s = writeResultFlag x (s.getV x - s.getV y) (notBorrow (s.getV x) (s.getV y)) s := rfl
theorem exec_shr (x y : Reg) (s : State) :
    exec (.shr x y) s = writeResultFlag x (s.shiftOperand x y >>> 1) (shiftedOutRight (s.shiftOperand x y)) s := rfl
theorem exec_subn (x y : Reg) (s : State) :
    exec (.subn x y) s = writeResultFlag x (s.getV y - s.getV x) (notBorrow (s.getV y) (s.getV x)) s := rfl
theorem exec_shl (x y : Reg) (s : State) :
    exec (.shl x y) s = writeResultFlag x (s.shiftOperand x y <<< 1) (shiftedOutLeft (s.shiftOperand x y)) s := rfl
theorem exec_rnd (x : Reg) (kk : Byte) (s : State) : exec (.rnd x kk) s = writeResult x (s.randByte &&& kk) s := rfl
theorem exec_addIVx (x : Reg) (s : State) : exec (.addIVx x) s = .next (s.setI (s.i + byteWord (s.getV x))).advance := rfl
theorem exec_ldFVx (x : Reg) (s : State) : exec (.ldFVx x) s = .next (s.setI (byteWord (s.getV x) * 5)).advance := rfl
theorem exec_ldVxDt (x : Reg) (s : State) : exec (.ldVxDt x) s = writeResult x s.dt s := rfl
theorem exec_ldDtVx (x : Reg) (s : State) : exec (.ldDtVx x) s = .next (s.setDt (s.getV x)).advance := rfl
theorem exec_ldStVx (x : Reg) (s : State) : exec (.ldStVx x) s = .next (s.setSt (s.getV x)).advance := rfl
theorem exec_ldVxK (x : Reg) (s : State) : exec (.ldVxK x) s = .next (s.enterWait x) := rfl

/-! The six instructions that can fault, on either side of their check. -/

theorem exec_ret_of_saved (saved : 0 < s.sp.val) : exec .ret s = .next (s.pop.setPc (s.top saved)) := dif_pos saved

theorem exec_ret_of_empty (empty : ¬ 0 < s.sp.val) : exec .ret s = .next (s.raise .stackUnderflow (encode .ret) 0) :=
  dif_neg empty

theorem exec_call_of_room (nnn : Addr) (room : s.sp.val < 16) :
    exec (.call nnn) s = .next ((s.push (s.pc + 2) room).setPc (addrWord nnn)) := dif_pos room

theorem exec_call_of_full (nnn : Addr) (full : ¬ s.sp.val < 16) :
    exec (.call nnn) s = .next (s.raise .stackOverflow (encode (.call nnn)) 0) := dif_neg full

theorem exec_drw_of_inRange {x y : Reg} {n : Nibble} (inRange : rangeFails s.i.toNat n.toNat = false) :
    exec (.drw x y n) s =
      .next ((s.showFrame (s.drawSprite x y n).1).setV vF (flagByte (s.drawSprite x y n).2)).advance :=
  if_neg (Bool.eq_false_iff.mp inRange)

theorem exec_drw_of_outside {x y : Reg} {n : Nibble} (outside : rangeFails s.i.toNat n.toNat = true) :
    exec (.drw x y n) s = .next (s.raise .memoryRange (encode (.drw x y n)) (lowestInvalid s.i.toNat)) := if_pos outside

theorem exec_ldBVx_of_inRange {x : Reg} (inRange : rangeFails s.i.toNat 3 = false) :
    exec (.ldBVx x) s = .next (s.storeBytes s.i.toNat (bcdDigits (s.getV x))).advance := if_neg (Bool.eq_false_iff.mp inRange)

theorem exec_ldBVx_of_outside {x : Reg} (outside : rangeFails s.i.toNat 3 = true) :
    exec (.ldBVx x) s = .next (s.raise .memoryRange (encode (.ldBVx x)) (lowestInvalid s.i.toNat)) := if_pos outside

theorem exec_ldMemVx_of_inRange {x : Reg} (inRange : rangeFails s.i.toNat (x.toNat + 1) = false) :
    exec (.ldMemVx x) s = .next (s.storeBytes s.i.toNat (s.regsUpTo x)).advance := if_neg (Bool.eq_false_iff.mp inRange)

theorem exec_ldMemVx_of_outside {x : Reg} (outside : rangeFails s.i.toNat (x.toNat + 1) = true) :
    exec (.ldMemVx x) s = .next (s.raise .memoryRange (encode (.ldMemVx x)) (lowestInvalid s.i.toNat)) := if_pos outside

theorem exec_ldVxMem_of_inRange {x : Reg} (inRange : rangeFails s.i.toNat (x.toNat + 1) = false) :
    exec (.ldVxMem x) s = .next (s.setAllV (s.loadRegs s.i.toNat (x.toNat + 1) s.v)).advance :=
  if_neg (Bool.eq_false_iff.mp inRange)

theorem exec_ldVxMem_of_outside {x : Reg} (outside : rangeFails s.i.toNat (x.toNat + 1) = true) :
    exec (.ldVxMem x) s = .next (s.raise .memoryRange (encode (.ldVxMem x)) (lowestInvalid s.i.toNat)) := if_pos outside

/-! The same six read backwards: the effect with the check passed, or the fault. -/

theorem exec_ret_cases (h : exec .ret s = .next t) :
    (∃ saved, t = s.pop.setPc (s.top saved)) ∨ (¬ 0 < s.sp.val ∧ t = s.raise .stackUnderflow (encode .ret) 0) := by
  by_cases saved : 0 < s.sp.val
  · rw [exec_ret_of_saved saved] at h; cases h; exact .inl ⟨saved, rfl⟩
  · rw [exec_ret_of_empty saved] at h; cases h; exact .inr ⟨saved, rfl⟩

theorem exec_call_cases {nnn : Addr} (h : exec (.call nnn) s = .next t) :
    (∃ room, t = (s.push (s.pc + 2) room).setPc (addrWord nnn)) ∨
      (¬ s.sp.val < 16 ∧ t = s.raise .stackOverflow (encode (.call nnn)) 0) := by
  by_cases room : s.sp.val < 16
  · rw [exec_call_of_room nnn room] at h; cases h; exact .inl ⟨room, rfl⟩
  · rw [exec_call_of_full nnn room] at h; cases h; exact .inr ⟨room, rfl⟩

/-- An instruction that checks a run of addresses before its one effect (R69). -/
theorem next_of_rangeCheck {first count : Nat} {u v t : State} (h : (if rangeFails first count then .next v else .next u :
    Host.Outcome State Fault Refusal) = .next t) :
    (rangeFails first count = false ∧ t = u) ∨ (rangeFails first count = true ∧ t = v) := by
  cases range : rangeFails first count with
  | false => rw [range] at h; cases h; exact .inl ⟨rfl, rfl⟩
  | true => rw [range] at h; cases h; exact .inr ⟨rfl, rfl⟩

theorem exec_drw_cases {x y : Reg} {n : Nibble} (h : exec (.drw x y n) s = .next t) :
    (rangeFails s.i.toNat n.toNat = false ∧
      t = ((s.showFrame (s.drawSprite x y n).1).setV vF (flagByte (s.drawSprite x y n).2)).advance) ∨
    (rangeFails s.i.toNat n.toNat = true ∧ t = s.raise .memoryRange (encode (.drw x y n)) (lowestInvalid s.i.toNat)) :=
  next_of_rangeCheck h

theorem exec_ldBVx_cases {x : Reg} (h : exec (.ldBVx x) s = .next t) :
    (rangeFails s.i.toNat 3 = false ∧ t = (s.storeBytes s.i.toNat (bcdDigits (s.getV x))).advance) ∨
    (rangeFails s.i.toNat 3 = true ∧ t = s.raise .memoryRange (encode (.ldBVx x)) (lowestInvalid s.i.toNat)) :=
  next_of_rangeCheck h

theorem exec_ldMemVx_cases {x : Reg} (h : exec (.ldMemVx x) s = .next t) :
    (rangeFails s.i.toNat (x.toNat + 1) = false ∧ t = (s.storeBytes s.i.toNat (s.regsUpTo x)).advance) ∨
    (rangeFails s.i.toNat (x.toNat + 1) = true ∧
      t = s.raise .memoryRange (encode (.ldMemVx x)) (lowestInvalid s.i.toNat)) := next_of_rangeCheck h

theorem exec_ldVxMem_cases {x : Reg} (h : exec (.ldVxMem x) s = .next t) :
    (rangeFails s.i.toNat (x.toNat + 1) = false ∧ t = (s.setAllV (s.loadRegs s.i.toNat (x.toNat + 1) s.v)).advance) ∨
    (rangeFails s.i.toNat (x.toNat + 1) = true ∧
      t = s.raise .memoryRange (encode (.ldVxMem x)) (lowestInvalid s.i.toNat)) := next_of_rangeCheck h

end Sys2Proof.Machine

namespace Sys2Proof

/-! ## Frames of the instructions -/

/-- What the instruction may write where it raises no fault: the writes of its row of 10_state.md R23, and for the rest of the state
those its rule names. -/
def Instr.writes (s : Machine.State) : Instr → Machine.MayChange
  | .cls => { fb := true, updates := true }
  | .ret => { sp := true }
  | .call _ => { sp := true, stack := fun j => j.val = s.sp.val }
  | .sys _ | .jp _ | .jpV0 _ | .seVxKk _ _ | .sneVxKk _ _ | .seVxVy _ _ | .sneVxVy _ _ | .skp _ | .sknp _ => {}
  | .ldVxKk x _ | .addVxKk x _ | .ldVxVy x _ | .orVxVy x _ | .andVxVy x _ | .xorVxVy x _ | .rnd x _ | .ldVxDt x =>
    { regs := (· = x) }
  | .addVxVy x _ | .sub x _ | .shr x _ | .subn x _ | .shl x _ => { regs := fun r => r = x ∨ r = 0xF#4 }
  | .ldI _ | .addIVx _ | .ldFVx _ => { index := true }
  | .drw _ _ _ => { regs := (· = 0xF#4), fb := true, updates := true }
  | .ldVxK _ => { status := true, waitX := true }
  | .ldDtVx _ => { dt := true }
  | .ldStVx _ => { st := true }
  | .ldBVx _ => { bytes := fun a => s.i.toNat ≤ a ∧ a < s.i.toNat + 3 }
  | .ldMemVx x => { bytes := fun a => s.i.toNat ≤ a ∧ a < s.i.toNat + (x.toNat + 1) }
  | .ldVxMem x => { regs := fun r => r.toNat ≤ x.toNat }

end Sys2Proof

namespace Sys2Proof.Machine

variable {s t : State} {i : Instr}

/-- A result and its flag, in that order, both registers named. -/
theorem keeps_resultFlag (s : State) (x : Reg) (result flag : Byte) :
    Keeps { regs := fun r => r = x ∨ r = 0xF#4 } s ((s.setV x result).setV vF flag).advance :=
  (((Keeps.refl _ s).setV (Or.inl rfl) result).setV (Or.inr rfl) flag).setPc _

theorem keeps_draw (s : State) (f : Framebuffer) (flag : Byte) :
    Keeps { regs := (· = 0xF#4), fb := true, updates := true } s ((s.showFrame f).setV vF flag).advance :=
  (((Keeps.refl _ s).showFrame rfl rfl f).setV rfl flag).setPc _

theorem keeps_call (s : State) (target : Word) (room : s.sp.val < 16) :
    Keeps { sp := true, stack := fun j => j.val = s.sp.val } s ((s.push (s.pc + 2) room).setPc target) :=
  ((Keeps.refl _ s).push rfl (fun _ at_sp => at_sp) _ room).setPc _

theorem keeps_ret (s : State) (target : Word) : Keeps { sp := true } s (s.pop.setPc target) :=
  ((Keeps.refl _ s).pop rfl).setPc _

/-- A run of bytes stored from `I`, its addresses named. -/
theorem keeps_store (s : State) (bs : List Byte) {count : Nat} (length : bs.length = count) :
    Keeps { bytes := fun a => s.i.toNat ≤ a ∧ a < s.i.toNat + count } s (s.storeBytes s.i.toNat bs).advance :=
  ((Keeps.refl _ s).storeBytes fun _ low high => And.intro low (length ▸ high)).setPc _

theorem keeps_load (s : State) (x : Reg) :
    Keeps { regs := fun r => r.toNat ≤ x.toNat } s (s.setAllV (s.loadRegs s.i.toNat (x.toNat + 1) s.v)).advance := by
  refine ((Keeps.refl _ s).setAllV fun r unnamed => ?_).setPc _
  have above : ¬ r.toNat ≤ x.toNat := unnamed
  rw [State.loadRegs_get, if_neg (by omega)]
  rfl

/-- Whatever an instruction answers, it wrote only what it may, or raised a fault and did nothing else (R108). -/
theorem exec_keeps_or_raises (h : exec i s = .next t) :
    Keeps (i.writes s) s t ∨ ∃ code opcode addr, code ≠ .none ∧ t = s.raise code opcode addr := by
  cases i
  case cls => cases h; exact .inl (((Keeps.refl _ s).showFrame rfl rfl _).setPc _)
  case ret =>
    rcases exec_ret_cases h with ⟨saved, rfl⟩ | ⟨-, rfl⟩
    · exact .inl (keeps_ret s _)
    · exact .inr ⟨_, _, _, by decide, rfl⟩
  case call =>
    rcases exec_call_cases h with ⟨room, rfl⟩ | ⟨-, rfl⟩
    · exact .inl (keeps_call s _ room)
    · exact .inr ⟨_, _, _, by decide, rfl⟩
  case sys | jp | jpV0 | seVxKk | sneVxKk | seVxVy | sneVxVy | skp | sknp =>
    cases h; exact .inl ((Keeps.refl _ s).setPc _)
  case ldVxKk | addVxKk | ldVxVy | orVxVy | andVxVy | xorVxVy | rnd | ldVxDt =>
    cases h; exact .inl (((Keeps.refl _ s).setV rfl _).setPc _)
  case addVxVy | sub | shr | subn | shl => cases h; exact .inl (keeps_resultFlag s _ _ _)
  case ldI | addIVx | ldFVx => cases h; exact .inl (((Keeps.refl _ s).setI rfl _).setPc _)
  case drw =>
    rcases exec_drw_cases h with ⟨-, rfl⟩ | ⟨-, rfl⟩
    · exact .inl (keeps_draw s _ _)
    · exact .inr ⟨_, _, _, by decide, rfl⟩
  case ldVxK => cases h; exact .inl ((Keeps.refl _ s).enterWait rfl rfl _)
  case ldDtVx => cases h; exact .inl (((Keeps.refl _ s).setDt rfl _).setPc _)
  case ldStVx => cases h; exact .inl (((Keeps.refl _ s).setSt rfl _).setPc _)
  case ldBVx =>
    rcases exec_ldBVx_cases h with ⟨-, rfl⟩ | ⟨-, rfl⟩
    · exact .inl (keeps_store s _ (bcdDigits_length _))
    · exact .inr ⟨_, _, _, by decide, rfl⟩
  case ldMemVx x =>
    rcases exec_ldMemVx_cases h with ⟨-, rfl⟩ | ⟨-, rfl⟩
    · exact .inl (keeps_store s _ (s.regsUpTo_length x))
    · exact .inr ⟨_, _, _, by decide, rfl⟩
  case ldVxMem x =>
    rcases exec_ldVxMem_cases h with ⟨-, rfl⟩ | ⟨-, rfl⟩
    · exact .inl (keeps_load s x)
    · exact .inr ⟨_, _, _, by decide, rfl⟩

end Sys2Proof.Machine

open Sys2Proof Sys2Proof.Machine

/-- Settles O54: no frame names the parameters or the host's side, and a fault keeps both. -/
theorem instructionsLeaveTheHostSideAlone : Obligations.InstructionsLeaveTheHostSideAlone := by
  intro i s t h
  rcases exec_keeps_or_raises h with kept | ⟨code, opcode, addr, -, rfl⟩
  · exact ⟨kept.params, kept.host⟩
  · exact ⟨rfl, rfl, rfl, rfl, rfl⟩

/-- Settles O48: only the frames of `Fx33` and `Fx55` name a byte, and a fault writes none. -/
theorem onlyBcdAndStoreWriteMemory : Obligations.OnlyBcdAndStoreWriteMemory := by
  intro i s t a h changed
  rcases exec_keeps_or_raises h with kept | ⟨code, opcode, addr, -, rfl⟩
  · have named : (i.writes s).bytes a := by_contra fun unnamed => changed (kept.bytes a unnamed)
    cases i
    case ldBVx x => exact ⟨x, .inl rfl⟩
    case ldMemVx x => exact ⟨x, .inr rfl⟩
    all_goals exact absurd named id
  · exact absurd (s.readByte_raise ..) changed

/-- Settles O53: the registers a frame names are those of the column "writes", and a fault writes none. -/
theorem registersWrittenAreThoseOfTheTable : Obligations.RegistersWrittenAreThoseOfTheTable := by
  intro i s t r h changed
  rcases exec_keeps_or_raises h with kept | ⟨code, opcode, addr, -, rfl⟩
  · have named : (i.writes s).regs r := by_contra fun unnamed => changed (kept.regs r unnamed)
    cases i
    case ldVxKk x kk | addVxKk x kk | rnd x kk => exact .inl ⟨x, kk, named, by simp⟩
    case ldVxVy x y | orVxVy x y | andVxVy x y | xorVxVy x y => exact .inr (.inl ⟨x, y, named, by simp⟩)
    case addVxVy x y | sub x y | subn x y | shr x y | shl x y => exact .inr (.inr (.inl ⟨x, y, named, by simp⟩))
    case drw x y n => exact .inr (.inr (.inr (.inl ⟨x, y, n, named, rfl⟩)))
    case ldVxDt x => exact .inr (.inr (.inr (.inr (.inl ⟨x, named, rfl⟩))))
    case ldVxMem x => exact .inr (.inr (.inr (.inr (.inr ⟨x, named, rfl⟩))))
    all_goals exact absurd named id
  · exact absurd (s.getV_raise ..) changed

end

section
/-! What one event does (40_cycle.md R100 to R110): the effect of each event as a relation, which is exactly what a step answers. -/

namespace Sys2Proof.Machine

/-- `e` takes the state it acts on to a next state: one constructor for each outcome the rules give. -/
inductive Effect : Event → State → State → Prop where
  /-- R280. -/
  | reset (image : List Byte) (s : State) (fits : image.length ≤ 3584) : Effect (.reset image) s (s.resetTo image)
  /-- R105, R106. -/
  | exec (r : Byte) (kd : Word) (s t : State) (i : Instr) (running : s.status = .running) (canFetch : s.canFetch)
      (legal : decode s.fetchWord = .ok i) (runs : exec i s = .next t) : Effect (.step r kd) s t
  /-- R102. -/
  | endOfRun (r : Byte) (kd : Word) (s : State) (running : s.status = .running) (outside : inProgramRegion s.pc = false) :
      Effect (.step r kd) s (s.setStatus .ended)
  /-- R103. -/
  | lastAddress (r : Byte) (kd : Word) (s : State) (running : s.status = .running) (last : s.pc = 0xFFF) :
      Effect (.step r kd) s (s.raise .memoryRange 0 0x1000)
  /-- R104. -/
  | illegalWord (r : Byte) (kd : Word) (s : State) (e : DecodeError) (running : s.status = .running) (canFetch : s.canFetch)
      (illegal : decode s.fetchWord = .error e) : Effect (.step r kd) s (s.raise .unknownOpcode s.fetchWord 0)
  /-- R231. -/
  | tick (s : State) (active : s.status = .running ∨ s.status = .waitKey) :
      Effect .tick s ((s.setDt (tickDown s.dt)).setSt (tickDown s.st))
  /-- R237. -/
  | key (c : Byte) (s : State) (waits : s.status = .waitKey) :
      Effect (.key c) s ((s.setV s.waitX c).advance.setStatus .running)
  /-- R238. -/
  | abort (s : State) (waits : s.status = .waitKey) (inMemory : s.pc.toNat + 1 < 0x1000) :
      Effect .abort s (s.raise .inputAborted s.fetchWord 0)
  /-- R46. -/
  | ignored (e : Event) (s : State) (unaccepted : e.acceptedIn s.status = false) : Effect e s s

variable {s s' t : State} {e : Event}

/-! ## Which events a status does not accept (R32) -/

theorem step_unaccepted_iff (r : Byte) (kd : Word) (c : Status) :
    (Event.step r kd).acceptedIn c = false ↔ c ≠ .running := by cases c <;> simp [Event.acceptedIn]

theorem key_unaccepted_iff (b : Byte) (c : Status) : (Event.key b).acceptedIn c = false ↔ c ≠ .waitKey := by
  cases c <;> simp [Event.acceptedIn]

theorem abort_unaccepted_iff (c : Status) : Event.abort.acceptedIn c = false ↔ c ≠ .waitKey := by
  cases c <;> simp [Event.acceptedIn]

theorem tick_unaccepted_iff (c : Status) : Event.tick.acceptedIn c = false ↔ ¬ (c = .running ∨ c = .waitKey) := by
  cases c <;> simp [Event.acceptedIn]

/-! ## Each event does what its rules say, and nothing else -/

theorem takeStep_of_effect (r : Byte) (kd : Word) (h : Effect (.step r kd) s t) : takeStep s = .next t := by
  cases h with
  | exec _ _ _ _ i running canFetch legal runs =>
    obtain ⟨region, notLast⟩ := canFetch.pc_checks
    simp only [takeStep, if_pos running, if_pos region, if_neg notLast, legal, runs]
  | endOfRun _ _ _ running outside => simp [takeStep, running, outside]
  | lastAddress _ _ _ running last => simp [takeStep, running, last, inProgramRegion]
  | illegalWord _ _ _ e running canFetch illegal => exact takeStep_of_illegal running canFetch illegal
  | ignored _ _ unaccepted => exact if_neg ((step_unaccepted_iff r kd _).mp unaccepted)

theorem effect_of_takeStep (r : Byte) (kd : Word) (h : takeStep s = .next t) : Effect (.step r kd) s t := by
  rcases takeStep_cases s with
    ⟨notRunning, eq⟩ | ⟨running, outside, eq⟩ | ⟨running, last, eq⟩ | ⟨running, canFetch, e, illegal, eq⟩ |
      ⟨running, canFetch, i, legal, eq⟩
  all_goals rw [eq] at h
  · cases h; exact .ignored _ s ((step_unaccepted_iff r kd _).mpr notRunning)
  · cases h; exact .endOfRun r kd s running outside
  · cases h; exact .lastAddress r kd s running last
  · cases h; exact .illegalWord r kd s e running canFetch illegal
  · exact .exec r kd s t i running canFetch legal h

theorem takeReset_eq_next_iff (image : List Byte) : takeReset image s = .next t ↔ Effect (.reset image) s t := by
  rw [takeReset]
  constructor
  · intro h
    split at h
    case isTrue => cases h
    case isFalse fits => cases h; exact .reset image s (Nat.le_of_not_lt fits)
  · intro h
    cases h with
    | reset _ _ fits => exact if_neg (Nat.not_lt_of_le fits)
    | ignored _ _ unaccepted => cases unaccepted

theorem takeTick_of_active (active : s.status = .running ∨ s.status = .waitKey) :
    takeTick s = .next ((s.setDt (tickDown s.dt)).setSt (tickDown s.st)) := by
  rcases active with hs | hs <;> simp only [takeTick, hs]

theorem takeTick_of_halted (halted : ¬ (s.status = .running ∨ s.status = .waitKey)) : takeTick s = .next s := by
  cases hs : s.status <;> simp_all [takeTick]

theorem takeTick_eq_next_iff : takeTick s = .next t ↔ Effect .tick s t := by
  constructor
  · intro h
    by_cases active : s.status = .running ∨ s.status = .waitKey
    · rw [takeTick_of_active active] at h; cases h; exact .tick s active
    · rw [takeTick_of_halted active] at h; cases h; exact .ignored _ s ((tick_unaccepted_iff _).mpr active)
  · intro h
    cases h with
    | tick _ active => exact takeTick_of_active active
    | ignored _ _ unaccepted => exact takeTick_of_halted ((tick_unaccepted_iff _).mp unaccepted)

theorem takeKey_eq_next_iff (c : Byte) : takeKey c s = .next t ↔ Effect (.key c) s t := by
  rw [takeKey]
  constructor
  · intro h
    split at h
    case isTrue waits => cases h; exact .key c s waits
    case isFalse waits => cases h; exact .ignored _ s ((key_unaccepted_iff c _).mpr waits)
  · intro h
    cases h with
    | key _ _ waits => exact if_pos waits
    | ignored _ _ unaccepted => exact if_neg ((key_unaccepted_iff c _).mp unaccepted)

theorem takeAbort_eq_next_iff : takeAbort s = .next t ↔ Effect .abort s t := by
  rw [takeAbort]
  constructor
  · intro h
    split at h
    case isTrue waits =>
      split at h
      case isTrue => cases h
      case isFalse inMemory => cases h; exact .abort s waits (Nat.lt_of_not_le inMemory)
    case isFalse waits => cases h; exact .ignored _ s ((abort_unaccepted_iff _).mpr waits)
  · intro h
    cases h with
    | abort _ waits inMemory => rw [if_pos waits, if_neg (Nat.not_le_of_lt inMemory)]
    | ignored _ _ unaccepted => exact if_neg ((abort_unaccepted_iff _).mp unaccepted)

/-- A step answers `t` exactly when the next event takes the state it acts on to `t`. -/
theorem step_eq_next_iff (next : NextEvent s e s') : step s = .next t ↔ Effect e s' t := by
  cases e with
  | step r kd => rw [step_of_stepNext next]; exact ⟨effect_of_takeStep r kd, takeStep_of_effect r kd⟩
  | reset image => rw [step_of_next next (by simp)]; exact takeReset_eq_next_iff image
  | tick => rw [step_of_next next (by simp)]; exact takeTick_eq_next_iff
  | key c => rw [step_of_next next (by simp)]; exact takeKey_eq_next_iff c
  | abort => rw [step_of_next next (by simp)]; exact takeAbort_eq_next_iff

/-! ## The state an event acts on -/

/-- The values of a STEP are at the ports of the state it acts on (R45). -/
theorem NextEvent.ports {r : Byte} {kd : Word} (next : NextEvent s (.step r kd) s') : s'.randByte = r ∧ s'.keyDown = kd := by
  cases next with
  | free => exact ⟨rfl, rfl⟩
  | listed => exact ⟨rfl, rfl⟩

/-- Every event still listed was listed before. -/
theorem NextEvent.inputs_subset (next : NextEvent s e s') : ∀ e' ∈ s'.inputs, e' ∈ s.inputs := by
  cases next with
  | free nothing => exact fun _ h => h
  | listed _ rest list =>
    have left : (e.applied (s.setInputs rest)).inputs = rest := by cases e <;> rfl
    intro e' h
    rw [list]
    exact List.mem_cons_of_mem _ (left ▸ h)

/-- An event other than a STEP is one the host lists. -/
theorem NextEvent.mem_inputs (next : NextEvent s e s') (other : ∀ r kd, e ≠ .step r kd) : e ∈ s.inputs := by
  cases next with
  | free => exact absurd rfl (other _ _)
  | listed _ rest list => rw [list]; exact List.mem_cons_self ..

theorem SameArch.refl (s : State) : SameArch s s := by constructor <;> rfl

theorem SameArch.trans {a b c : State} (h : SameArch a b) (h' : SameArch b c) : SameArch a c where
  v := h'.v.trans h.v
  i := h'.i.trans h.i
  pc := h'.pc.trans h.pc
  sp := h'.sp.trans h.sp
  stack := h'.stack.trans h.stack
  dt := h'.dt.trans h.dt
  st := h'.st.trans h.st
  fb := h'.fb.trans h.fb
  mem := h'.mem.trans h.mem
  status := h'.status.trans h.status
  waitX := h'.waitX.trans h.waitX
  faultCode := h'.faultCode.trans h.faultCode
  faultPc := h'.faultPc.trans h.faultPc
  faultOpcode := h'.faultOpcode.trans h.faultOpcode
  faultAddr := h'.faultAddr.trans h.faultAddr
  params := h'.params.trans h.params
  fbUpdates := h'.fbUpdates.trans h.fbUpdates

theorem SameArch.canFetch (same : SameArch s t) (h : s.canFetch) : t.canFetch := by rwa [State.canFetch, same.pc]

theorem SameArch.getV (same : SameArch s t) (r : Reg) : t.getV r = s.getV r := by rw [State.getV, State.getV, same.v]

end Sys2Proof.Machine

open Sys2Proof Sys2Proof.Machine

/-- Settles O6: the word fetched in the state the STEP acts on is the one at `pc` before. -/
theorem stepRunsTheDecodedInstruction : Obligations.StepRunsTheDecodedInstruction := by
  intro s s' r kd i next running canFetch legal
  have same := next.sameArch
  obtain ⟨t, runs⟩ := exec_next i s'
  have legal' : decode s'.fetchWord = .ok i := by rw [same.fetchWord]; exact legal
  have effect : Effect (.step r kd) s' t := .exec r kd s' t i (same.status.trans running) (same.canFetch canFetch) legal' runs
  exact ⟨((step_eq_next_iff next).mpr effect).trans runs.symm, next.ports.1, next.ports.2, same⟩

/-- Settles O7: the one outcome R102 gives for that `pc`, which writes `status` alone. -/
theorem stepOutsideTheProgramRegionEndsTheRun : Obligations.StepOutsideTheProgramRegionEndsTheRun := by
  intro s s' r kd next running outside
  have same := next.sameArch
  have outside' : inProgramRegion s'.pc = false := by
    rw [same.pc, inProgramRegion, Bool.and_eq_false_iff, decide_eq_false_iff_not, decide_eq_false_iff_not]
    omega
  have effect := Effect.endOfRun r kd s' (same.status.trans running) outside'
  exact ⟨_, (step_eq_next_iff next).mpr effect, rfl, same.pc, (Keeps.refl _ s').setStatus rfl _⟩

/-- Settles O8: the one outcome R103 gives at 0xFFF, a fault entry. -/
theorem fetchAtTheLastAddressFaults : Obligations.FetchAtTheLastAddressFaults := by
  intro s s' r kd next running last
  have same := next.sameArch
  have effect := Effect.lastAddress r kd s' (same.status.trans running) (same.pc.trans last)
  exact ⟨_, (step_eq_next_iff next).mpr effect, State.raise_faults ..⟩

/-- Settles O10: the outcome of R46, the state the event acts on. -/
theorem unacceptedEventsChangeNothing : Obligations.UnacceptedEventsChangeNothing := by
  intro s s' e next unaccepted
  have same := next.sameArch
  exact ⟨(step_eq_next_iff next).mpr (.ignored e s' (by rw [same.status, unaccepted])), same⟩

namespace Sys2Proof.Machine

/-- The status that only RESET leaves (R254, R255). -/
theorem Event.unaccepted_of_halted {e : Event} {c : Status} (halted : c = .ended ∨ c = .faulted)
    (notReset : ∀ image, e ≠ .reset image) : e.acceptedIn c = false := by
  cases e with
  | reset image => exact absurd rfl (notReset image)
  | step | tick | key | abort => rcases halted with rfl | rfl <;> rfl

theorem coreRun_succ (M : Host.Core) {s s' : M.State} (stepped : M.step s = .next s') (k : Nat) :
    M.run (k + 1) s = M.run k s' := by rw [Host.Core.run, stepped]

/-- One more step of a run, where it answers a next state. -/
theorem run_succ_of_step {s s' : State} (stepped : step s = .next s') (k : Nat) :
    Sys2Proof.core.run (k + 1) s = Sys2Proof.core.run k s' := coreRun_succ Sys2Proof.core stepped k

end Sys2Proof.Machine

/-- Settles O11, by induction on the number of steps: the next event is no RESET, so it is not accepted. -/
theorem haltedMachineStaysHalted : Obligations.HaltedMachineStaysHalted := by
  intro k
  induction k with
  | zero => exact fun s _ _ => ⟨s, rfl, SameArch.refl s⟩
  | succ k ih =>
    intro s halted noReset
    obtain ⟨e, s', next⟩ := nextEvent_exists s
    have notReset : ∀ image, e ≠ .reset image := by
      rintro image rfl
      exact noReset image (next.mem_inputs (by simp))
    obtain ⟨stepped, same⟩ := unacceptedEventsChangeNothing s s' e next (Event.unaccepted_of_halted halted notReset)
    obtain ⟨t, ran, same'⟩ := ih s' (by rwa [same.status]) fun image h => noReset image (next.inputs_subset _ h)
    exact ⟨t, (run_succ_of_step stepped k).trans ran, same.trans same'⟩

end

section
/-! TICK, KEY, ABORT and RESET (46_timers_input.md, 70_reset_and_hazards.md section 1). -/

namespace Sys2Proof.Machine

/-- One tick takes one off, and 0 stays 0 (R231). -/
theorem toNat_tickDown (b : Byte) : (tickDown b).toNat = b.toNat - 1 := by
  rw [tickDown]
  split
  case isTrue zero => rw [zero]; rfl
  case isFalse nonzero =>
    have pos : 1 ≤ b := by bv_omega
    rw [BitVec.toNat_sub_of_le pos]
    rfl

/-- A TICK that is accepted (R231). -/
theorem step_tick {s s' : State} (next : NextEvent s .tick s') (active : s.status = .running ∨ s.status = .waitKey) :
    step s = .next ((s'.setDt (tickDown s'.dt)).setSt (tickDown s'.st)) :=
  (step_eq_next_iff next).mpr (.tick s' (next.sameArch.status ▸ active))

theorem keeps_tick (s : State) (d c : Byte) : Keeps { dt := true, st := true } s ((s.setDt d).setSt c) :=
  ((Keeps.refl _ s).setDt rfl d).setSt rfl c

theorem Keeps.trans {may : MayChange} {a b c : State} (h : Keeps may a b) (h' : Keeps may b c) : Keeps may a c where
  regs r unnamed := (h'.regs r unnamed).trans (h.regs r unnamed)
  index unnamed := (h'.index unnamed).trans (h.index unnamed)
  sp unnamed := (h'.sp unnamed).trans (h.sp unnamed)
  stack j unnamed := (h'.stack j unnamed).trans (h.stack j unnamed)
  dt unnamed := (h'.dt unnamed).trans (h.dt unnamed)
  st unnamed := (h'.st unnamed).trans (h.st unnamed)
  fb unnamed := (h'.fb unnamed).trans (h.fb unnamed)
  bytes a unnamed := (h'.bytes a unnamed).trans (h.bytes a unnamed)
  status unnamed := (h'.status unnamed).trans (h.status unnamed)
  waitX unnamed := (h'.waitX unnamed).trans (h.waitX unnamed)
  record unnamed := by
    obtain ⟨code, pc, opcode, addr⟩ := h.record unnamed
    obtain ⟨code', pc', opcode', addr'⟩ := h'.record unnamed
    exact ⟨code'.trans code, pc'.trans pc, opcode'.trans opcode, addr'.trans addr⟩
  updates unnamed := (h'.updates unnamed).trans (h.updates unnamed)
  params := h'.params.trans h.params
  host := by
    obtain ⟨rand, keys, draws, inputs⟩ := h.host
    obtain ⟨rand', keys', draws', inputs'⟩ := h'.host
    exact ⟨rand'.trans rand, keys'.trans keys, draws'.trans draws, inputs'.trans inputs⟩

/-! ## RESET -/

theorem getV_resetTo (image : List Byte) (s : State) (r : Reg) : (s.resetTo image).getV r = 0 :=
  Vector.getElem_replicate ..

theorem pixel_resetTo (image : List Byte) (s : State) (px : Fin 64) (py : Fin 32) : (s.resetTo image).pixel px py = false :=
  framePixel_clear px py

theorem readByte_resetTo_image (image : List Byte) (s : State) (k : Nat) (inside : k < image.length) :
    (s.resetTo image).readByte (0x200 + k) = image[k] :=
  Memory.read_writeAll_inside image [] 0x200 k inside

/-- Outside the image memory is what R39 leaves: the font, then zeros. -/
theorem readByte_resetTo_outside (image : List Byte) (s : State) (a : Nat) (outside : a < 0x200 ∨ 0x200 + image.length ≤ a) :
    (s.resetTo image).readByte a = Memory.background s.params.font a :=
  Memory.read_writeAll_outside image [] 0x200 outside

theorem background_font (font : Font) (k : Fin 80) : Memory.background font k.val = font[k.val] := dif_pos k.isLt

theorem background_zero (font : Font) {a : Nat} (above : 0x050 ≤ a) : Memory.background font a = 0 := dif_neg (by omega)

end Sys2Proof.Machine

open Sys2Proof Sys2Proof.Machine

/-- Settles O12: an accepted TICK writes `tickDown` of each counter. -/
theorem tickCountsBothTimersDown : Obligations.TickCountsBothTimersDown := by
  intro s s' next active
  have same := next.sameArch
  refine ⟨_, step_tick next active, ?_, ?_, same.pc, keeps_tick s' _ _⟩
  · exact (toNat_tickDown s'.dt).trans (by rw [same.dt])
  · exact (toNat_tickDown s'.st).trans (by rw [same.st])

/-- Settles O13, by induction on the number of TICKs. -/
theorem ticksDrainTheTimersToZero : Obligations.TicksDrainTheTimersToZero := by
  intro k
  induction k with
  | zero =>
    intro s rest active list
    have unchanged : s.setInputs rest = s := by rw [← List.nil_append rest, ← List.replicate_zero, ← list]; rfl
    exact ⟨s, rfl, rfl, rfl, rfl, list, by rw [unchanged]; exact Keeps.refl _ s⟩
  | succ k ih =>
    intro s rest active list
    have stepped := step_tick (.listed s .tick _ list) active
    obtain ⟨t, ran, dt, st, pc, inputs, kept⟩ :=
      ih (((s.setInputs (List.replicate k .tick ++ rest)).setDt (tickDown s.dt)).setSt (tickDown s.st)) rest active rfl
    refine ⟨t, (run_succ_of_step stepped k).trans ran, ?_, ?_, pc, inputs, (keeps_tick (s.setInputs rest) _ _).trans kept⟩
    · rw [dt, State.setSt_dt, State.setDt_dt, toNat_tickDown]; omega
    · rw [st, State.setSt_st, toNat_tickDown]; omega

/-- Settles O14: the outcome R237 gives in the key wait, on the `wait_x` of the state before. -/
theorem keyCompletesTheWait : Obligations.KeyCompletesTheWait := by
  intro s s' c next waits
  have same := next.sameArch
  have stepped := (step_eq_next_iff next).mpr (.key c s' (same.status.trans waits))
  rw [same.waitX] at stepped
  refine ⟨_, stepped, s'.getV_setV_same s.waitX c, by rw [← same.pc]; rfl, rfl, ?_⟩
  exact ((((Keeps.refl _ s').setV rfl c).setPc _).setStatus rfl _)

/-- Settles O15: the two clauses are the two sides of the check on the second byte's address. -/
theorem abortRaisesInputAborted : Obligations.AbortRaisesInputAborted := by
  intro s s' next waits
  have same := next.sameArch
  have waits' : s'.status = .waitKey := same.status.trans waits
  constructor
  · intro inMemory
    have stepped := (step_eq_next_iff next).mpr (.abort s' waits' (by rwa [same.pc]))
    rw [same.fetchWord] at stepped
    exact ⟨_, stepped, State.raise_faults ..⟩
  · intro past
    rw [step_of_next next (by simp), ← same.pc]
    exact (if_pos waits').trans (if_pos (by rwa [same.pc]))

/-- Settles O16: memory is the image written over the background, and every other element is a constant. -/
theorem resetEventSetsEveryStateElement : Obligations.ResetEventSetsEveryStateElement := by
  intro s s' image next fits
  have same := next.sameArch
  have stepped := (step_eq_next_iff next).mpr (.reset image s' fits)
  have font (k : Fin 80) : (s'.resetTo image).readByte k.val = s.params.font[k.val] := by
    rw [readByte_resetTo_outside image s' k.val (.inl (by omega)), background_font, same.params]
  have below (a : Nat) (low : 0x050 ≤ a) (high : a < 0x200) : (s'.resetTo image).readByte a = 0 := by
    rw [readByte_resetTo_outside image s' a (.inl high), background_zero _ low]
  have above (a : Nat) (low : 0x200 + image.length ≤ a) (_ : a ≤ 0xFFF) : (s'.resetTo image).readByte a = 0 := by
    rw [readByte_resetTo_outside image s' a (.inr low), background_zero _ (by omega)]
  exact ⟨_, stepped, getV_resetTo image s', rfl, rfl, rfl, fun _ => Vector.getElem_replicate .., rfl, rfl,
    pixel_resetTo image s', font, below, readByte_resetTo_image image s', above, rfl, rfl, ⟨rfl, rfl, rfl, rfl⟩, same.params, rfl,
    same.fbUpdates⟩

/-- Settles O17: the check of R281 comes before the one effect of RESET. -/
theorem tooLongImageIsRefused : Obligations.TooLongImageIsRefused := by
  intro s s' image next tooLong
  rw [step_of_next next (by simp)]
  exact if_pos tooLong

/-- Settles O18: no byte is listed, so every byte is the background. -/
theorem resetStateHoldsTheResetValues : Obligations.ResetStateHoldsTheResetValues :=
  ⟨fun _ => Vector.getElem_replicate .., rfl, rfl, rfl, fun _ => Vector.getElem_replicate .., rfl, rfl, framePixel_clear,
    background_font _, fun _ above => background_zero _ above, rfl, rfl, rfl, rfl, rfl, rfl⟩

end

section
/-! What an instruction does to `pc`, to the stack and to the framebuffer, and the safety statements that follow for every event
(10_state.md sections 2 to 4, 40_cycle.md section 2, 60_exceptions.md section 1). -/

namespace Sys2Proof.Machine

/-- An instruction that advances where its range check passes and did not advance has faulted, `pc` kept (R106, R69). -/
theorem faulted_of_rangeCheck {s t u : State} {passed failed : Prop} {code : FaultCode} {opcode addr : Word}
    (h : (passed ∧ t = u) ∨ (failed ∧ t = s.raise code opcode addr)) (advances : u.pc = s.pc + 2) (moved : t.pc ≠ s.pc + 2) :
    t.status = .faulted ∧ t.pc = s.pc := by
  rcases h with ⟨-, rfl⟩ | ⟨-, rfl⟩
  · exact absurd advances moved
  · exact ⟨rfl, rfl⟩

end Sys2Proof.Machine

open Sys2Proof Sys2Proof.Machine

/-- Settles O47: an instruction not named either advances or is stopped by its range check. -/
theorem onlyTransfersSetThePc : Obligations.OnlyTransfersSetThePc := by
  intro i s t h moved
  have stopped {A B C D E : Prop} (fault : t.status = .faulted ∧ t.pc = s.pc) :
      A ∨ B ∨ C ∨ D ∨ E ∨ (t.status = .faulted ∧ t.pc = s.pc) := .inr (.inr (.inr (.inr (.inr fault))))
  cases i
  case jp nnn | call nnn | jpV0 nnn => exact .inl ⟨nnn, by simp⟩
  case ret => exact .inr (.inl rfl)
  case seVxKk x kk | sneVxKk x kk => exact .inr (.inr (.inl ⟨x, kk, by simp⟩))
  case seVxVy x y | sneVxVy x y => exact .inr (.inr (.inr (.inl ⟨x, y, by simp⟩)))
  case skp x | sknp x | ldVxK x => exact .inr (.inr (.inr (.inr (.inl ⟨x, by simp⟩))))
  case drw => exact stopped (faulted_of_rangeCheck (exec_drw_cases h) rfl moved)
  case ldBVx => exact stopped (faulted_of_rangeCheck (exec_ldBVx_cases h) rfl moved)
  case ldMemVx => exact stopped (faulted_of_rangeCheck (exec_ldMemVx_cases h) rfl moved)
  case ldVxMem => exact stopped (faulted_of_rangeCheck (exec_ldVxMem_cases h) rfl moved)
  all_goals cases h; exact absurd rfl moved

/-- Settles O46: each of the six on the failing side of its own check; no other instruction sets `FAULTED`. -/
theorem eachInstructionHasOneFault : Obligations.EachInstructionHasOneFault := by
  intro i s t h notFaulted faulted
  cases i
  case ret =>
    rcases exec_ret_cases h with ⟨saved, rfl⟩ | ⟨empty, rfl⟩
    · exact absurd faulted notFaulted
    · exact .inl ⟨rfl, Fin.ext (Nat.eq_zero_of_not_pos empty), rfl⟩
  case call nnn =>
    rcases exec_call_cases h with ⟨room, rfl⟩ | ⟨full, rfl⟩
    · exact absurd faulted notFaulted
    · have sixteen : s.sp = 16 := Fin.ext (show s.sp.val = 16 by omega)
      exact .inr (.inl ⟨nnn, rfl, sixteen, rfl⟩)
  case drw x y n =>
    rcases exec_drw_cases h with ⟨-, rfl⟩ | ⟨outside, rfl⟩
    · exact absurd faulted notFaulted
    · obtain ⟨some, past⟩ := (rangeFails_iff ..).mp outside
      have nonzero : n ≠ 0 := by rintro rfl; exact absurd some (by decide)
      exact .inr (.inr ⟨rfl, .inl ⟨x, y, n, rfl, nonzero, by omega⟩⟩)
  case ldBVx x =>
    rcases exec_ldBVx_cases h with ⟨-, rfl⟩ | ⟨outside, rfl⟩
    · exact absurd faulted notFaulted
    · obtain ⟨-, past⟩ := (rangeFails_iff ..).mp outside
      exact .inr (.inr ⟨rfl, .inr (.inl ⟨x, rfl, by omega⟩)⟩)
  case ldMemVx x =>
    rcases exec_ldMemVx_cases h with ⟨-, rfl⟩ | ⟨outside, rfl⟩
    · exact absurd faulted notFaulted
    · obtain ⟨-, past⟩ := (rangeFails_iff ..).mp outside
      exact .inr (.inr ⟨rfl, .inr (.inr ⟨x, .inl rfl, by omega⟩)⟩)
  case ldVxMem x =>
    rcases exec_ldVxMem_cases h with ⟨-, rfl⟩ | ⟨outside, rfl⟩
    · exact absurd faulted notFaulted
    · obtain ⟨-, past⟩ := (rangeFails_iff ..).mp outside
      exact .inr (.inr ⟨rfl, .inr (.inr ⟨x, .inr rfl, by omega⟩)⟩)
  case ldVxK => cases h; cases faulted
  all_goals cases h; exact absurd faulted notFaulted

/-- Settles O45: every effect that makes the machine `FAULTED` is a fault entry with a code of the table. -/
theorem faultsArePrecise : Obligations.FaultsArePrecise := by
  intro s s' t e next stepped notFaulted faulted
  have notFaulted' : s'.status ≠ .faulted := next.sameArch.status ▸ notFaulted
  cases (step_eq_next_iff next).mp stepped with
  | reset => cases faulted
  | exec _ _ _ _ i _ _ _ runs =>
    rcases exec_runState runs with ⟨-, -, -, -, same | ⟨x, -, rfl⟩⟩ | ⟨code, opcode, addr, named, rfl⟩
    · exact absurd (same ▸ faulted) notFaulted'
    · cases faulted
    · exact ⟨code, opcode, addr, named, State.raise_faults ..⟩
  | endOfRun => cases faulted
  | lastAddress => exact ⟨_, _, _, by decide, State.raise_faults ..⟩
  | illegalWord => exact ⟨_, _, _, by decide, State.raise_faults ..⟩
  | tick => exact absurd faulted notFaulted'
  | key => cases faulted
  | abort => exact ⟨_, _, _, by decide, State.raise_faults ..⟩
  | ignored => exact absurd faulted notFaulted'

namespace Sys2Proof.Machine

variable {s t : State} {i : Instr}

/-- R26: the stack and `sp` are as before, or a CALL pushed, or a RET popped. -/
theorem exec_stack_cases (h : exec i s = .next t) :
    (t.sp = s.sp ∧ ∀ j : Fin 16, t.stack[j.val] = s.stack[j.val]) ∨
    (∃ nnn, i = .call nnn ∧ t.sp.val = s.sp.val + 1 ∧
      ∀ j : Fin 16, t.stack[j.val] = if j.val = s.sp.val then s.pc + 2 else s.stack[j.val]) ∨
    (i = .ret ∧ t.sp.val + 1 = s.sp.val ∧ ∀ j : Fin 16, t.stack[j.val] = s.stack[j.val]) := by
  rcases exec_keeps_or_raises h with kept | ⟨code, opcode, addr, -, rfl⟩
  · cases i
    case call nnn =>
      rcases exec_call_cases h with ⟨room, rfl⟩ | ⟨-, rfl⟩
      · exact .inr (.inl ⟨nnn, rfl, rfl, s.push_stack_at _ room⟩)
      · exact .inl ⟨rfl, fun _ => rfl⟩
    case ret =>
      rcases exec_ret_cases h with ⟨saved, rfl⟩ | ⟨-, rfl⟩
      · exact .inr (.inr ⟨rfl, Nat.sub_add_cancel saved, fun _ => rfl⟩)
      · exact .inl ⟨rfl, fun _ => rfl⟩
    all_goals exact .inl ⟨kept.sp rfl, fun j => kept.stack j id⟩
  · exact .inl ⟨rfl, fun _ => rfl⟩

/-- R48: one update with the grid left, or the framebuffer and the updates as before, which for `00E0` and `Dxyn` is a fault. -/
theorem exec_framebuffer_cases (h : exec i s = .next t) :
    ((i = .cls ∨ ∃ x y n, i = .drw x y n) ∧ t.fbUpdates = s.fbUpdates ++ [t.fb]) ∨
    (t.fb = s.fb ∧ t.fbUpdates = s.fbUpdates ∧ ((i = .cls ∨ ∃ x y n, i = .drw x y n) → t.status = .faulted)) := by
  rcases exec_keeps_or_raises h with kept | ⟨code, opcode, addr, -, rfl⟩
  · cases i
    case cls => cases h; exact .inl ⟨.inl rfl, rfl⟩
    case drw x y n =>
      rcases exec_drw_cases h with ⟨-, rfl⟩ | ⟨-, rfl⟩
      · exact .inl ⟨.inr ⟨x, y, n, rfl⟩, rfl⟩
      · exact .inr ⟨rfl, rfl, fun _ => rfl⟩
    all_goals exact .inr ⟨kept.fb rfl, kept.updates rfl, fun shows => by simp at shows⟩
  · exact .inr ⟨rfl, rfl, fun _ => rfl⟩

end Sys2Proof.Machine

/-- Settles O51: only `exec` can move `sp`, and there it is a CALL that pushed or a RET that popped. -/
theorem onlyCallAndReturnMoveTheStackPointer : Obligations.OnlyCallAndReturnMoveTheStackPointer := by
  intro s s' t e next stepped moved
  have same := next.sameArch
  rw [← same.sp] at moved ⊢
  rw [← same.fetchWord]
  cases (step_eq_next_iff next).mp stepped with
  | reset image => exact .inl ⟨image, rfl⟩
  | exec r kd _ _ i _ _ legal runs =>
    refine .inr ⟨⟨r, kd, rfl⟩, ?_⟩
    rcases exec_stack_cases runs with ⟨kept, -⟩ | ⟨nnn, rfl, up, -⟩ | ⟨rfl, down, -⟩
    · exact absurd kept moved
    · exact .inl ⟨nnn, legal, up⟩
    · exact .inr ⟨legal, down⟩
  | endOfRun | lastAddress | illegalWord | tick | key | abort | ignored => exact absurd rfl moved

/-- Settles O52: of the frames of the instructions only those of `Fx15` and `Fx18` name a timer. -/
theorem onlyTheirWritersChangeTheTimers : Obligations.OnlyTheirWritersChangeTheTimers := by
  intro s s' t e next stepped
  have same := next.sameArch
  rw [← same.dt, ← same.st, ← same.fetchWord]
  simp only [← same.getV]
  cases (step_eq_next_iff next).mp stepped with
  | reset image => exact ⟨fun _ => .inl ⟨image, rfl⟩, fun _ => .inl ⟨image, rfl⟩⟩
  | tick => exact ⟨fun _ => .inr (.inl rfl), fun _ => .inr (.inl rfl)⟩
  | exec r kd _ _ i _ _ legal runs =>
    rcases exec_keeps_or_raises runs with kept | ⟨code, opcode, addr, -, rfl⟩
    · constructor
      · intro changed
        have named : ¬ (i.writes s').dt = false := fun unnamed => changed (kept.dt unnamed)
        cases i
        case ldDtVx x => cases runs; exact .inr (.inr ⟨⟨r, kd, rfl⟩, x, legal, rfl⟩)
        all_goals exact absurd rfl named
      · intro changed
        have named : ¬ (i.writes s').st = false := fun unnamed => changed (kept.st unnamed)
        cases i
        case ldStVx x => cases runs; exact .inr (.inr ⟨⟨r, kd, rfl⟩, x, legal, rfl⟩)
        all_goals exact absurd rfl named
    · exact ⟨absurd rfl, absurd rfl⟩
  | endOfRun | lastAddress | illegalWord | key | abort | ignored => exact ⟨absurd rfl, absurd rfl⟩

/-- Settles O49: a STEP that executes is `exec_framebuffer_cases`; any other effect sends nothing. -/
theorem onlyClearAndDrawTouchTheFramebuffer : Obligations.OnlyClearAndDrawTouchTheFramebuffer := by
  intro s s' t e next stepped
  have same := next.sameArch
  have canFetch : s.canFetch ↔ s'.canFetch := by rw [State.canFetch, State.canFetch, same.pc]
  rw [← same.fb, ← same.fbUpdates, ← same.fetchWord, ← same.status, canFetch]
  cases (step_eq_next_iff next).mp stepped with
  | reset image => exact ⟨fun _ => .inl ⟨image, rfl⟩, .inl ⟨rfl, by simp⟩⟩
  | exec r kd _ _ i _ _ legal runs =>
    rw [legal]
    simp only [Except.ok.injEq]
    rcases exec_framebuffer_cases runs with ⟨shows, sent⟩ | ⟨kept, unsent, faults⟩
    · exact ⟨fun _ => .inr ⟨⟨r, kd, rfl⟩, shows⟩, .inr ⟨sent, ⟨r, kd, rfl⟩, shows⟩⟩
    · refine ⟨absurd kept, .inl ⟨unsent, ?_⟩⟩
      rintro ⟨-, -, -, running, shows⟩
      rw [faults shows] at running
      cases running
  | endOfRun | lastAddress | illegalWord | tick | key | abort => exact ⟨absurd rfl, .inl ⟨rfl, by simp⟩⟩
  | ignored e _ unaccepted =>
    refine ⟨absurd rfl, .inl ⟨rfl, ?_⟩⟩
    rintro ⟨⟨r, kd, rfl⟩, running, -⟩
    exact (step_unaccepted_iff r kd _).mp unaccepted running

end

section
/-! The invariant of the states a RESET leads to (10_state.md R37): each outcome of an event keeps it. -/

namespace Sys2Proof.Machine

variable {s t : State} {i : Instr} {e : Event}

/-! ## The parts of the invariant under an instruction -/

@[simp] theorem toNat_byteWord (b : Byte) : (byteWord b).toNat = b.toNat := BitVec.toNat_setWidth_of_le (by decide)

/-- R124: the sum of a byte and a 12-bit address does not wrap. -/
theorem toNat_byteWord_add_addrWord (b : Byte) (nnn : Addr) : (byteWord b + addrWord nnn).toNat = b.toNat + nnn.toNat := by
  rw [BitVec.toNat_add, toNat_byteWord, toNat_addrWord]
  omega

/-- R25: the largest `pc` is that of `Bnnn`; a return address is at most 0x1000 and a skip lands at most at 0x1002. -/
theorem exec_pc_bound (inv : s.Inv) (canFetch : s.canFetch) (h : exec i s = .next t) : t.pc.toNat ≤ 0x10FE := by
  obtain ⟨low, high⟩ := canFetch
  have two : (s.pc + 2).toNat ≤ 0x10FE := by bv_omega
  have four : (s.pc + 4).toNat ≤ 0x10FE := by bv_omega
  have skip (c : Bool) : (s.skipIf c).pc.toNat ≤ 0x10FE := by cases c; exacts [two, four]
  have target (nnn : Addr) : (addrWord nnn).toNat ≤ 0x10FE := by rw [toNat_addrWord]; omega
  by_cases moved : t.pc = s.pc + 2
  · rw [moved]; exact two
  rcases onlyTransfersSetThePc i s t h moved with
    ⟨nnn, rfl | rfl | rfl⟩ | rfl | ⟨x, kk, rfl | rfl⟩ | ⟨x, y, rfl | rfl⟩ | ⟨x, rfl | rfl | rfl⟩ | ⟨-, held⟩
  · cases h; exact target nnn
  · rcases exec_call_cases h with ⟨-, rfl⟩ | ⟨-, rfl⟩
    · exact target nnn
    · exact inv.pcBound
  · cases h
    show (byteWord (s.getV 0) + addrWord nnn).toNat ≤ 0x10FE
    rw [toNat_byteWord_add_addrWord]
    omega
  · rcases exec_ret_cases h with ⟨saved, rfl⟩ | ⟨-, rfl⟩
    · have live := (inv.liveReturns ⟨s.sp.val - 1, by omega⟩ (by simp; omega)).2
      exact live.trans (by decide)
    · exact inv.pcBound
  · cases h; exact skip _
  · cases h; exact skip _
  · cases h; exact skip _
  · cases h; exact skip _
  · cases h; exact skip _
  · cases h; exact skip _
  · cases h; exact inv.pcBound
  · rw [held]; exact inv.pcBound

/-- R62, R69: only `Fx33` and `Fx55` write memory, and their range check keeps them below 0x1000. -/
theorem exec_memWf (wf : Memory.wf s.params.font s.mem) (h : exec i s = .next t) : Memory.wf t.params.font t.mem := by
  cases i
  case ldBVx x =>
    rcases exec_ldBVx_cases h with ⟨inRange, rfl⟩ | ⟨-, rfl⟩
    · have below : s.i.toNat + 3 ≤ 0x1000 := ((rangeFails_false_iff ..).mp inRange).resolve_left (by decide)
      exact s.memWf_storeBytes _ _ wf below
    · exact wf
  case ldMemVx x =>
    rcases exec_ldMemVx_cases h with ⟨inRange, rfl⟩ | ⟨-, rfl⟩
    · have below := ((rangeFails_false_iff ..).mp inRange).resolve_left (by omega)
      exact s.memWf_storeBytes _ _ wf (by rwa [State.regsUpTo_length])
    · exact wf
  case ret => rcases exec_ret_cases h with ⟨-, rfl⟩ | ⟨-, rfl⟩ <;> exact wf
  case call => rcases exec_call_cases h with ⟨-, rfl⟩ | ⟨-, rfl⟩ <;> exact wf
  case drw => rcases exec_drw_cases h with ⟨-, rfl⟩ | ⟨-, rfl⟩ <;> exact wf
  case ldVxMem => rcases exec_ldVxMem_cases h with ⟨-, rfl⟩ | ⟨-, rfl⟩ <;> exact wf
  all_goals cases h; exact wf

/-- R27, R123: the entry a CALL saves is the `pc + 2` of an instruction that can be fetched. -/
theorem exec_liveReturns (inv : s.Inv) (canFetch : s.canFetch) (h : exec i s = .next t) :
    ∀ j : Fin 16, j.val < t.sp.val → 0x202 ≤ (t.stack[j.val]).toNat ∧ (t.stack[j.val]).toNat ≤ 0x1000 := by
  intro j live
  obtain ⟨low, high⟩ := canFetch
  rcases exec_stack_cases h with ⟨sp, kept⟩ | ⟨nnn, -, up, pushed⟩ | ⟨-, down, kept⟩
  · rw [kept]; exact inv.liveReturns j (sp ▸ live)
  · rw [pushed]
    split
    case isTrue => constructor <;> bv_omega
    case isFalse other => exact inv.liveReturns j (by omega)
  · rw [kept]; exact inv.liveReturns j (by omega)

/-! ## The invariant under each outcome -/

theorem State.Inv.noRecord_of_notFaulted (inv : s.Inv) (notFaulted : s.status ≠ .faulted) : s.noRecord := by
  have record := inv.record
  rwa [if_neg notFaulted] at record

/-- The invariant speaks of state elements alone. -/
theorem SameArch.inv (same : SameArch s t) (inv : s.Inv) : t.Inv where
  memWf := by rw [same.params, same.mem]; exact inv.memWf
  pcBound := by rw [same.pc]; exact inv.pcBound
  liveReturns := by rw [same.sp, same.stack]; exact inv.liveReturns
  waiting := by
    rw [same.status, same.fetchWord, same.waitX]
    exact fun waits => ⟨same.canFetch (inv.waiting waits).1, (inv.waiting waits).2⟩
  endedOutside := by rw [same.status, same.pc]; exact inv.endedOutside
  record := by
    rw [same.status, State.noRecord, same.faultCode, same.faultPc, same.faultOpcode, same.faultAddr, same.pc]
    exact inv.record

theorem State.Inv.raise (inv : s.Inv) {code : FaultCode} (named : code ≠ .none) (opcode addr : Word) :
    (s.raise code opcode addr).Inv where
  memWf := inv.memWf
  pcBound := inv.pcBound
  liveReturns := inv.liveReturns
  waiting := nofun
  endedOutside := nofun
  record := ⟨named, rfl⟩

theorem State.inv_resetTo (s : State) {image : List Byte} (fits : image.length ≤ 3584) : (s.resetTo image).Inv where
  memWf := Memory.wf_writeAll image [] 0x200 Memory.wf_nil (.inr (by omega))
  pcBound := show (0x200 : Word).toNat ≤ 0x10FE by decide
  liveReturns := fun j live => absurd live (Nat.not_lt_zero _)
  waiting := nofun
  endedOutside := nofun
  record := ⟨rfl, rfl, rfl, rfl⟩

theorem State.Inv.tick (inv : s.Inv) (d c : Byte) : ((s.setDt d).setSt c).Inv := { inv with }

/-- R237: the wait is over and `pc` moves past the waiting `Fx0A`. -/
theorem State.Inv.key (inv : s.Inv) (waits : s.status = .waitKey) (b : Byte) :
    ((s.setV s.waitX b).advance.setStatus .running).Inv where
  memWf := inv.memWf
  pcBound := by
    obtain ⟨low, high⟩ := (inv.waiting waits).1
    show (s.pc + 2).toNat ≤ 0x10FE
    bv_omega
  liveReturns := inv.liveReturns
  waiting := nofun
  endedOutside := nofun
  record := inv.noRecord_of_notFaulted (by rw [waits]; decide)

theorem State.Inv.endOfRun (inv : s.Inv) (running : s.status = .running) (outside : inProgramRegion s.pc = false) :
    (s.setStatus .ended).Inv where
  memWf := inv.memWf
  pcBound := inv.pcBound
  liveReturns := inv.liveReturns
  waiting := nofun
  endedOutside := fun _ => outside
  record := inv.noRecord_of_notFaulted (by rw [running]; decide)

theorem State.Inv.exec (inv : s.Inv) (running : s.status = .running) (canFetch : s.canFetch)
    (legal : decode s.fetchWord = .ok i) (h : exec i s = .next t) : t.Inv := by
  have noRecord := inv.noRecord_of_notFaulted (by rw [running]; decide)
  rcases exec_runState h with ⟨code, pc, opcode, addr, same | ⟨x, rfl, rfl⟩⟩ | ⟨code, opcode, addr, named, rfl⟩
  · have running' : t.status = .running := same.trans running
    exact {
      memWf := exec_memWf inv.memWf h
      pcBound := exec_pc_bound inv canFetch h
      liveReturns := exec_liveReturns inv canFetch h
      waiting := by rw [running']; nofun
      endedOutside := by rw [running']; nofun
      record := by rw [running', State.noRecord, code, pc, opcode, addr]; exact noRecord }
  · exact { inv with
      waiting := fun _ => ⟨canFetch, legal⟩
      endedOutside := nofun
      record := noRecord }
  · exact inv.raise named opcode addr

theorem Effect.inv (effect : Effect e s t) (inv : s.Inv) : t.Inv := by
  cases effect with
  | reset image _ fits => exact s.inv_resetTo fits
  | exec _ _ _ _ i running canFetch legal runs => exact inv.exec running canFetch legal runs
  | endOfRun _ _ _ running outside => exact inv.endOfRun running outside
  | lastAddress => exact inv.raise (by decide) _ _
  | illegalWord => exact inv.raise (by decide) _ _
  | tick => exact inv.tick _ _
  | key _ _ waits => exact inv.key waits _
  | abort => exact inv.raise (by decide) _ _
  | ignored => exact inv

/-! ## Progress -/

/-- No event touches the rest of the host's list. -/
theorem Effect.inputs (effect : Effect e s t) : t.inputs = s.inputs := by
  cases effect with
  | exec _ _ _ _ i _ _ _ runs => exact (instructionsLeaveTheHostSideAlone i s t runs).2.2.2.2
  | reset | endOfRun | lastAddress | illegalWord | tick | key | abort | ignored => rfl

/-- A STEP always answers a next state. -/
theorem takeStep_next (s : State) : ∃ t, takeStep s = .next t := by
  rcases takeStep_cases s with ⟨-, h⟩ | ⟨-, -, h⟩ | ⟨-, -, h⟩ | ⟨-, -, -, -, h⟩ | ⟨-, -, i, -, h⟩
  case inr.inr.inr.inr => obtain ⟨t, runs⟩ := exec_next i s; exact ⟨t, h.trans runs⟩
  all_goals exact ⟨_, h⟩

/-- Of the events only a RESET that cannot be placed and an ABORT past the end of memory have no next state. -/
theorem Effect.exists (fits : ∀ image, e = .reset image → image.length ≤ 3584)
    (inMemory : s.status = .waitKey → s.pc.toNat + 1 < 0x1000) : ∃ t, Effect e s t := by
  cases e with
  | reset image => exact ⟨_, .reset image s (fits image rfl)⟩
  | step r kd =>
    obtain ⟨t, h⟩ := takeStep_next s
    exact ⟨t, effect_of_takeStep r kd h⟩
  | tick =>
    by_cases active : s.status = .running ∨ s.status = .waitKey
    · exact ⟨_, .tick s active⟩
    · exact ⟨_, .ignored _ s ((tick_unaccepted_iff _).mpr active)⟩
  | key c =>
    by_cases waits : s.status = .waitKey
    · exact ⟨_, .key c s waits⟩
    · exact ⟨_, .ignored _ s ((key_unaccepted_iff c _).mpr waits)⟩
  | abort =>
    by_cases waits : s.status = .waitKey
    · exact ⟨_, .abort s waits (inMemory waits)⟩
    · exact ⟨_, .ignored _ s ((abort_unaccepted_iff _).mpr waits)⟩

end Sys2Proof.Machine

open Sys2Proof Sys2Proof.Machine

/-- Settles O57: the invariant passes to the state the event acts on, and every effect keeps it. -/
theorem everyStepKeepsTheInvariant : Obligations.EveryStepKeepsTheInvariant := by
  intro s t inv stepped
  obtain ⟨e, s', next⟩ := nextEvent_exists s
  exact ((step_eq_next_iff next).mp stepped).inv (next.sameArch.inv inv)

/-- Settles O56: the reset state is what RESET with the empty image makes of it. -/
theorem resetStateMeetsTheInvariant : Obligations.ResetStateMeetsTheInvariant :=
  State.inv_resetTo State.reset (image := []) (by decide)

/-- Settles O58: in the key wait the invariant has the waiting word in memory, so an ABORT can read it. -/
theorem noEventStopsTheMachine : Obligations.NoEventStopsTheMachine := by
  intro s inv loadable
  obtain ⟨e, s', next⟩ := nextEvent_exists s
  have inv' : s'.Inv := next.sameArch.inv inv
  have fits (image : List Byte) (h : e = .reset image) : image.length ≤ 3584 :=
    loadable image (h ▸ next.mem_inputs (by simp [h]))
  have inMemory (waits : s'.status = .waitKey) : s'.pc.toNat + 1 < 0x1000 := by
    obtain ⟨-, high⟩ := (inv'.waiting waits).1
    omega
  obtain ⟨t, effect⟩ := Effect.exists fits inMemory
  refine ⟨t, (step_eq_next_iff next).mpr effect, fun image listed => loadable image ?_⟩
  exact next.inputs_subset _ (effect.inputs ▸ listed)

end

section
/-! Noninterference: dead elements (10_state.md R37) reach no other element, and pixels (45_display.md R217) reach only the collision
bit. -/

namespace Sys2Proof.Machine

variable {s t s₁ s₂ t₁ : State} {i : Instr} {e : Event}

/-- A run of loads depends on the bytes read alone. -/
theorem loadRegs_congr (sameBytes : ∀ a, s.readByte a = t.readByte a) (base count : Nat) (v : Vector Byte 16) :
    s.loadRegs base count v = t.loadRegs base count v := by
  induction count with
  | zero => rfl
  | succ n ih => rw [State.loadRegs, State.loadRegs, ih, sameBytes]

/-! ## Dead elements -/

/-- The state with other stack entries and another `wait_x`. -/
def State.withDead (stack : Vector Word 16) (waitX : Reg) (s : State) : State := { s with stack := stack, waitX := waitX }

/-- `stack` has the live entries of the state, and `waitX` is its `wait_x` where that is live (R37). -/
structure LiveAgree (s : State) (stack : Vector Word 16) (waitX : Reg) : Prop where
  entries : ∀ j : Fin 16, j.val < s.sp.val → stack[j.val] = s.stack[j.val]
  wait : s.status = .waitKey → waitX = s.waitX

theorem sameLive_iff : SameLive s₁ s₂ ↔ ∃ stack waitX, s₂ = s₁.withDead stack waitX ∧ LiveAgree s₁ stack waitX := by
  constructor
  · rintro ⟨rest, entries, wait⟩
    exact ⟨s₂.stack, s₂.waitX, rest, entries, wait⟩
  · rintro ⟨stack, waitX, rfl, entries, wait⟩
    exact ⟨rfl, entries, wait⟩

theorem LiveAgree.sameLive {stack : Vector Word 16} {waitX : Reg} (agree : LiveAgree s stack waitX) :
    SameLive s (s.withDead stack waitX) := sameLive_iff.mpr ⟨stack, waitX, rfl, agree⟩

variable {stack : Vector Word 16} {waitX : Reg}

theorem top_withDead (agree : LiveAgree s stack waitX) (saved : 0 < s.sp.val) :
    (s.withDead stack waitX).top saved = s.top saved :=
  agree.entries ⟨s.sp.val - 1, by omega⟩ (by simp; omega)

/-- A pushed entry is the same on both sides, and the entries below it stay so. -/
theorem LiveAgree.push (agree : LiveAgree s stack waitX) (w : Word) (room : s.sp.val < 16) :
    LiveAgree (s.push w room) (stack.set s.sp.val w room) waitX where
  entries j live := by
    rw [s.push_stack_at, Vector.getElem_set]
    have live' : j.val < s.sp.val + 1 := live
    by_cases at_sp : j.val = s.sp.val
    · rw [if_pos at_sp, if_pos at_sp.symm]
    · rw [if_neg at_sp, if_neg (Ne.symm at_sp), agree.entries j (by omega)]
  wait := agree.wait

theorem LiveAgree.pop (agree : LiveAgree s stack waitX) : LiveAgree s.pop stack waitX where
  entries j live := agree.entries j (Nat.lt_of_lt_of_le live (Nat.sub_le _ _))
  wait := agree.wait

/-- An instruction does the same to all else whatever the dead elements hold. -/
theorem exec_withDead (agree : LiveAgree s stack waitX) (h : exec i s = .next t) :
    ∃ t₂, exec i (s.withDead stack waitX) = .next t₂ ∧ SameLive t t₂ := by
  cases i
  case call nnn =>
    rcases exec_call_cases h with ⟨room, rfl⟩ | ⟨full, rfl⟩
    · have pushed := agree.push (s.pc + 2) room
      exact ⟨_, exec_call_of_room (s := s.withDead stack waitX) nnn room, rfl, pushed.entries, pushed.wait⟩
    · exact ⟨_, exec_call_of_full nnn full, rfl, agree.entries, nofun⟩
  case ret =>
    rcases exec_ret_cases h with ⟨saved, rfl⟩ | ⟨empty, rfl⟩
    · refine ⟨_, exec_ret_of_saved (s := s.withDead stack waitX) saved, ?_, agree.pop.entries, agree.pop.wait⟩
      rw [top_withDead agree saved]
      rfl
    · exact ⟨_, exec_ret_of_empty empty, rfl, agree.entries, nofun⟩
  case drw =>
    rcases exec_drw_cases h with ⟨inRange, rfl⟩ | ⟨outside, rfl⟩
    · exact ⟨_, exec_drw_of_inRange inRange, rfl, agree.entries, agree.wait⟩
    · exact ⟨_, exec_drw_of_outside outside, rfl, agree.entries, nofun⟩
  case ldBVx =>
    rcases exec_ldBVx_cases h with ⟨inRange, rfl⟩ | ⟨outside, rfl⟩
    · exact ⟨_, exec_ldBVx_of_inRange inRange, rfl, agree.entries, agree.wait⟩
    · exact ⟨_, exec_ldBVx_of_outside outside, rfl, agree.entries, nofun⟩
  case ldMemVx =>
    rcases exec_ldMemVx_cases h with ⟨inRange, rfl⟩ | ⟨outside, rfl⟩
    · exact ⟨_, exec_ldMemVx_of_inRange inRange, rfl, agree.entries, agree.wait⟩
    · exact ⟨_, exec_ldMemVx_of_outside outside, rfl, agree.entries, nofun⟩
  case ldVxMem x =>
    rcases exec_ldVxMem_cases h with ⟨inRange, rfl⟩ | ⟨outside, rfl⟩
    · refine ⟨_, exec_ldVxMem_of_inRange inRange, ?_, agree.entries, agree.wait⟩
      rw [loadRegs_congr (s := s.withDead stack waitX) (t := s) fun _ => rfl]
      rfl
    · exact ⟨_, exec_ldVxMem_of_outside outside, rfl, agree.entries, nofun⟩
  case ldVxK => cases h; exact ⟨_, rfl, rfl, agree.entries, fun _ => rfl⟩
  all_goals cases h; exact ⟨_, rfl, rfl, agree.entries, agree.wait⟩

/-- An event does the same to all else whatever the dead elements hold. -/
theorem effect_withDead (agree : LiveAgree s stack waitX) (effect : Effect e s t) :
    ∃ t₂, Effect e (s.withDead stack waitX) t₂ ∧ SameLive t t₂ := by
  cases effect with
  | reset image _ fits => exact ⟨_, .reset image _ fits, rfl, fun _ _ => rfl, fun _ => rfl⟩
  | exec r kd _ _ i running canFetch legal runs =>
    obtain ⟨t₂, runs₂, live⟩ := exec_withDead agree runs
    exact ⟨t₂, .exec r kd _ t₂ i running canFetch legal runs₂, live⟩
  | endOfRun r kd _ running outside => exact ⟨_, .endOfRun r kd _ running outside, rfl, agree.entries, nofun⟩
  | lastAddress r kd _ running last => exact ⟨_, .lastAddress r kd _ running last, rfl, agree.entries, nofun⟩
  | illegalWord r kd _ e running canFetch illegal =>
    exact ⟨_, .illegalWord r kd _ e running canFetch illegal, rfl, agree.entries, nofun⟩
  | tick _ active => exact ⟨_, .tick _ active, rfl, agree.entries, agree.wait⟩
  | key c _ waits =>
    refine ⟨_, .key c _ waits, ?_, agree.entries, nofun⟩
    rw [show (s.withDead stack waitX).waitX = s.waitX from agree.wait waits]
    rfl
  | abort _ waits inMemory => exact ⟨_, .abort _ waits inMemory, rfl, agree.entries, nofun⟩
  | ignored e _ unaccepted => exact ⟨_, .ignored e _ unaccepted, agree.sameLive⟩

/-- The same event is next, on states that differ in the same dead elements. -/
theorem NextEvent.withDead {s' : State} (next : NextEvent s e s') (stack : Vector Word 16) (waitX : Reg) :
    NextEvent (s.withDead stack waitX) e (s'.withDead stack waitX) := by
  cases next with
  | free nothing => exact .free (s.withDead stack waitX) nothing
  | listed _ rest list =>
    have applied : e.applied ((s.withDead stack waitX).setInputs rest) = (e.applied (s.setInputs rest)).withDead stack waitX := by
      cases e <;> rfl
    exact applied ▸ .listed (s.withDead stack waitX) e rest list

theorem LiveAgree.of_sameArch {s' : State} (agree : LiveAgree s stack waitX) (same : SameArch s s') :
    LiveAgree s' stack waitX where
  entries := by rw [same.sp, same.stack]; exact agree.entries
  wait := by rw [same.status, same.waitX]; exact agree.wait

end Sys2Proof.Machine

open Sys2Proof Sys2Proof.Machine

/-- Settles O55: the second state is the first with other dead elements, on which the same event has the same effect. -/
theorem deadElementsAreNeverRead : Obligations.DeadElementsAreNeverRead := by
  intro s₁ s₂ t₁ same stepped
  obtain ⟨stack, waitX, rfl, agree⟩ := sameLive_iff.mp same
  obtain ⟨e, s', next⟩ := nextEvent_exists s₁
  have effect := (step_eq_next_iff next).mp stepped
  obtain ⟨t₂, effect₂, live⟩ := effect_withDead (agree.of_sameArch next.sameArch) effect
  exact ⟨t₂, (step_eq_next_iff (next.withDead stack waitX)).mpr effect₂, live⟩

/-! ## Pixels -/

/-- Settles O50: no other instruction's check or result reads the framebuffer. -/
theorem pixelsReachNothingButCollision : Obligations.PixelsReachNothingButCollision := by
  intro i s t f notDraw h
  cases i
  case drw x y n => exact absurd rfl (notDraw x y n)
  case call nnn =>
    rcases exec_call_cases h with ⟨room, rfl⟩ | ⟨full, rfl⟩
    · exact ⟨_, exec_call_of_room (s := { s with fb := f }) nnn room, rfl⟩
    · exact ⟨_, exec_call_of_full (s := { s with fb := f }) nnn full, rfl⟩
  case ret =>
    rcases exec_ret_cases h with ⟨saved, rfl⟩ | ⟨empty, rfl⟩
    · exact ⟨_, exec_ret_of_saved (s := { s with fb := f }) saved, rfl⟩
    · exact ⟨_, exec_ret_of_empty (s := { s with fb := f }) empty, rfl⟩
  case ldBVx =>
    rcases exec_ldBVx_cases h with ⟨inRange, rfl⟩ | ⟨outside, rfl⟩
    · exact ⟨_, exec_ldBVx_of_inRange inRange, rfl⟩
    · exact ⟨_, exec_ldBVx_of_outside outside, rfl⟩
  case ldMemVx =>
    rcases exec_ldMemVx_cases h with ⟨inRange, rfl⟩ | ⟨outside, rfl⟩
    · exact ⟨_, exec_ldMemVx_of_inRange inRange, rfl⟩
    · exact ⟨_, exec_ldMemVx_of_outside outside, rfl⟩
  case ldVxMem =>
    rcases exec_ldVxMem_cases h with ⟨inRange, rfl⟩ | ⟨outside, rfl⟩
    · refine ⟨_, exec_ldVxMem_of_inRange inRange, ?_⟩
      rw [loadRegs_congr (s := { s with fb := f }) (t := s) fun _ => rfl]
      rfl
    · exact ⟨_, exec_ldVxMem_of_outside outside, rfl⟩
  all_goals cases h; exact ⟨_, rfl, rfl⟩

end

section
/-! Control transfer and skips (41_control_flow.md, 42_skips.md), and how a word comes to run (log entry 9). -/

namespace Sys2Proof.Machine

variable {s t : State} {i : Instr}

/-! ## The word placed -/

theorem tableWord_toNat (w : Word) : tableWord 16 w.toNat = w := by
  rw [tableWord, Nat.mod_eq_of_lt w.isLt, BitVec.ofNat_toNat, BitVec.setWidth_eq]

theorem stepFirst_cases (r : Byte) (kd : Word) (es : List Event) :
    stepFirst r kd es = [] ∨ ∃ r' kd' rest, stepFirst r kd es = .step r' kd' :: rest := by
  cases es with
  | nil => exact .inl rfl
  | cons e rest => cases e <;> exact .inr ⟨_, _, _, rfl⟩

/-- The next event after a word is placed is a STEP, listed or free. -/
theorem placeWord_next (w : Word) (s : State) : ∃ r kd s', NextEvent (s.placeWord w) (.step r kd) s' := by
  rcases stepFirst_cases s.randByte s.keyDown s.inputs with nothing | ⟨r, kd, rest, list⟩
  · exact ⟨_, _, _, .free _ nothing⟩
  · exact ⟨r, kd, _, .listed _ _ rest list⟩

theorem placeWord_canFetch (w : Word) (s : State) : (s.placeWord w).canFetch := by
  show 0x200 ≤ (if inProgramRegion s.pc && s.pc != 0xFFF then s.pc else 0x200 : Word).toNat ∧
    (if inProgramRegion s.pc && s.pc != 0xFFF then s.pc else 0x200 : Word).toNat < 0xFFF
  split
  case isTrue can =>
    simp only [inProgramRegion, Bool.and_eq_true, decide_eq_true_eq, bne_iff_ne] at can
    obtain ⟨⟨low, high⟩, notLast⟩ := can
    exact ⟨low, by bv_omega⟩
  case isFalse => decide

theorem placeWord_fetchWord (w : Word) (s : State) : (s.placeWord w).fetchWord = w := by
  have first := State.readByte_storeBytes_inside
    (({ s with status := .running, inputs := stepFirst s.randByte s.keyDown s.inputs }).setPc (s.placeWord w).pc)
    (s.placeWord w).pc.toNat [highByte w, lowByte w]
  exact (congrArg₂ wordOfBytes (first 0 Nat.zero_lt_two) (first 1 Nat.one_lt_two)).trans (wordOfBytes_bytes w)

end Sys2Proof.Machine

open Sys2Proof Sys2Proof.Machine

/-- Settles O59: the placed word is fetched where it was stored, and it decodes to the instruction it encodes. -/
theorem placedWordRunsNext : Obligations.PlacedWordRunsNext := by
  intro s i wf
  rw [State.withFetchWord, tableWord_toNat]
  obtain ⟨r, kd, s', next⟩ := placeWord_next (encode i) s
  have fetched := placeWord_fetchWord (encode i) s
  have legal : decode (s.placeWord (encode i)).fetchWord = .ok i := by rw [fetched, decode_encode wf]
  obtain ⟨runs, -⟩ := stepRunsTheDecodedInstruction _ s' r kd i next rfl (placeWord_canFetch _ s) legal
  exact ⟨r, kd, s', next, next.sameArch.fetchWord.trans fetched, runs⟩

/-- Settles O20: the 16-bit sum of a byte and a 12-bit address is the exact one. -/
theorem jumpWithOffsetIsTheExactSum : Obligations.JumpWithOffsetIsTheExactSum := fun s nnn =>
  ⟨_, exec_jpV0 nnn s, toNat_byteWord_add_addrWord (s.getV 0) nnn, (Keeps.refl {} s).setPc _⟩

/-- Settles O21: the two clauses are the two sides of the check on `sp`. -/
theorem callSavesTheReturnAddress : Obligations.CallSavesTheReturnAddress := by
  intro s nnn
  constructor
  · intro room
    have saved (j : Fin 16) (top : j.val = s.sp.val) : (s.push (s.pc + 2) room).stack[j.val] = s.pc + 2 := by
      rw [s.push_stack_at, if_pos top]
    exact ⟨_, exec_call_of_room nnn room, toNat_addrWord nnn, rfl, saved, keeps_call s _ room⟩
  · intro sixteen
    have full : ¬ s.sp.val < 16 := by rw [sixteen]; decide
    exact ⟨_, exec_call_of_full nnn full, State.raise_faults ..⟩

/-- Settles O22: the two clauses are the two sides of the check on `sp`. -/
theorem returnTakesTheSavedAddress : Obligations.ReturnTakesTheSavedAddress := by
  intro s
  constructor
  · intro j depth
    have saved : 0 < s.sp.val := by omega
    have top : s.top saved = s.stack[j.val] := by
      simp only [State.top, depth, Nat.add_sub_cancel]
    exact ⟨_, exec_ret_of_saved saved, top, by simp [State.pop, depth], keeps_ret s _⟩
  · intro zero
    have empty : ¬ 0 < s.sp.val := by rw [zero]; decide
    exact ⟨_, exec_ret_of_empty empty, State.raise_faults ..⟩

namespace Sys2Proof.Machine

/-! ## Nested calls -/

theorem execAll_cons {s s' : State} {i : Instr} (runs : exec i s = .next s') (rest : List Instr) :
    execAll (i :: rest) s = execAll rest s' := by rw [execAll, runs]

theorem execAll_append {s s' : State} {first : List Instr} (ran : execAll first s = .next s') (rest : List Instr) :
    execAll (first ++ rest) s = execAll rest s' := by
  induction first generalizing s with
  | nil => cases ran; rfl
  | cons i is ih =>
    obtain ⟨u, runs⟩ := exec_next i s
    rw [execAll_cons runs] at ran
    rw [List.cons_append, execAll_cons runs, ih ran]

/-- A frame that names more. -/
theorem Keeps.deeper {s t : State} {depth depth' : Nat} (h : Keeps { stack := fun j => depth' ≤ j.val } s t)
    (le : depth ≤ depth') : Keeps { sp := true, stack := fun j => depth ≤ j.val } s t :=
  { h with
    sp := nofun
    stack := fun j unnamed => h.stack j fun named => unnamed (Nat.le_trans le named) }

/-- The calls of `targets` nested, then as many returns; empty where there is no target. -/
def callsAndReturns (targets : List Addr) : List Instr :=
  targets.map .call ++ List.replicate targets.length .ret

theorem callsAndReturns_cons (nnn : Addr) (rest : List Addr) :
    callsAndReturns (nnn :: rest) = .call nnn :: (callsAndReturns rest ++ [.ret]) := by
  simp [callsAndReturns, List.replicate_succ']

/-- Each level: the inner levels leave the entry this CALL saved, and the last RET finds it (R125). -/
theorem execAll_callsAndReturns (targets : List Addr) (s : State) (fits : s.sp.val + targets.length ≤ 16) :
    ∃ t, execAll (callsAndReturns targets) s = .next t ∧ (targets ≠ [] → t.pc = s.pc + 2) ∧ t.sp = s.sp ∧
      Keeps { stack := fun j => s.sp.val ≤ j.val } s t := by
  induction targets generalizing s with
  | nil => exact ⟨s, rfl, absurd rfl, rfl, Keeps.refl _ s⟩
  | cons nnn rest ih =>
    rw [List.length_cons] at fits
    have room : s.sp.val < 16 := by omega
    obtain ⟨u, ran, -, depth, kept⟩ := ih ((s.push (s.pc + 2) room).setPc (addrWord nnn)) (by
      show s.sp.val + 1 + rest.length ≤ 16
      omega)
    have spVal : u.sp.val = s.sp.val + 1 := congrArg Fin.val depth
    have saved : 0 < u.sp.val := by omega
    have top : u.top saved = s.pc + 2 := by
      have entry := kept.stack ⟨s.sp.val, room⟩ (Nat.not_succ_le_self s.sp.val)
      have index : u.sp.val - 1 = s.sp.val := by omega
      simp only [State.top, index]
      exact entry.trans ((s.push_stack_at _ room ⟨s.sp.val, room⟩).trans (if_pos rfl))
    have spBack : u.pop.sp = s.sp := Fin.ext (by show u.sp.val - 1 = s.sp.val; omega)
    have pushed : Keeps { sp := true, stack := fun j => s.sp.val ≤ j.val } s ((s.push (s.pc + 2) room).setPc (addrWord nnn)) :=
      ((Keeps.refl _ s).push rfl (fun _ at_sp => at_sp.ge) _ room).setPc _
    have inner := kept.deeper (Nat.le_succ s.sp.val)
    have whole := ((pushed.trans inner).pop rfl).setPc (u.top saved)
    refine ⟨u.pop.setPc (u.top saved), ?_, fun _ => top, spBack, { whole with sp := fun _ => spBack }⟩
    rw [callsAndReturns_cons, execAll_cons (exec_call_of_room nnn room), execAll_append ran,
      execAll_cons (exec_ret_of_saved saved)]
    rfl

end Sys2Proof.Machine

/-- Settles O23: by induction on the targets, in `execAll_callsAndReturns`. -/
theorem nestedCallsReturnToTheSuccessor : Obligations.NestedCallsReturnToTheSuccessor := by
  intro s targets some fits
  obtain ⟨t, ran, pc, sp, kept⟩ := execAll_callsAndReturns targets s fits
  exact ⟨t, ran, pc some, sp, kept⟩

namespace Sys2Proof.Machine

/-- R47 with R144: the test of the two skips on the key state. -/
theorem isKeyDown_iff (s : State) (x : Reg) : s.isKeyDown x = true ↔
    s.params.hasKeyState = true ∧ (s.getV x).toNat < 16 ∧ s.keyDown.getLsbD (s.getV x).toNat = true := by
  rw [State.isKeyDown, State.keyDownSample, Bool.and_eq_true, decide_eq_true_eq]
  cases s.params.hasKeyState <;> simp

end Sys2Proof.Machine

/-- Settles O25: `Ex9E` skips where the test holds, `ExA1` where it fails. -/
theorem skipsOnKeyState : Obligations.SkipsOnKeyState := by
  intro s x
  constructor
  · exact exec_of_skipIf (exec_skp x s) (isKeyDown_iff s x)
  · have up : (!s.isKeyDown x) = true ↔ ¬ (s.params.hasKeyState = true ∧ (s.getV x).toNat < 16 ∧
        s.keyDown.getLsbD (s.getV x).toNat = true) := by
      rw [← isKeyDown_iff, Bool.not_eq_true', Bool.not_eq_true]
    obtain ⟨t, runs, pc, kept⟩ := exec_of_skipIf (exec_sknp x s) up
    exact ⟨t, runs, pc.trans (ite_not ..), kept⟩

end

section
/-! Register arithmetic and logic (43_alu.md): what writing a result and its flag does whatever they are, and each result as a number
or bit by bit. -/

namespace Sys2Proof.Machine

variable {s t : State} {i : Instr} {x y : Reg} {result : Byte} {flag : Bool}

/-- An instruction that writes `result` to `V[x]` and then `flag` to VF (R22). -/
theorem exec_of_writeResultFlag (writes : exec i s = writeResultFlag x result flag s) :
    ∃ t, exec i s = .next t ∧ (x ≠ 0xF#4 → t.getV x = result) ∧ t.getV 0xF#4 = flagByte flag ∧ t.pc = s.pc + 2 ∧
      Keeps { regs := fun r => r = x ∨ r = 0xF#4 } s t := by
  have written (other : x ≠ 0xF#4) : ((s.setV x result).setV vF (flagByte flag)).getV x = result := by
    rw [State.getV_setV_other _ _ other, State.getV_setV_same]
  exact ⟨_, writes, written, State.getV_setV_same .., rfl, keeps_resultFlag s x result _⟩

/-- The flag as the choice between 1 and 0 that the rules write. -/
theorem flagByte_decide (P : Prop) [Decidable P] : flagByte (decide P) = if P then 1 else 0 := by
  by_cases h : P <;> simp [flagByte, h]

theorem toNat_flagByte (b : Bool) : (flagByte b).toNat = b.toNat := by cases b <;> rfl

/-- The difference modulo 256 as an integer (R167, R169). -/
theorem toNat_byte_sub (a b : Byte) : ((a - b).toNat : Int) = ((a.toNat : Int) - b.toNat) % 256 := by
  rw [BitVec.toNat_sub]
  omega

theorem toNat_shiftedOutRight (src : Byte) : (flagByte (shiftedOutRight src)).toNat = src.toNat % 2 := by
  rw [toNat_flagByte, shiftedOutRight, BitVec.getLsbD, Nat.testBit_zero]
  rcases Nat.mod_two_eq_zero_or_one src.toNat with h | h <;> simp [h]

theorem toNat_shiftedOutLeft (src : Byte) : (flagByte (shiftedOutLeft src)).toNat = src.toNat / 128 := by
  have lt := src.isLt
  rw [toNat_flagByte, shiftedOutLeft, BitVec.getLsbD, Nat.testBit_eq_decide_div_mod_eq]
  by_cases high : src.toNat / 2 ^ 7 % 2 = 1
  · rw [decide_eq_true high, Bool.toNat_true]; omega
  · rw [decide_eq_false high, Bool.toNat_false]; omega

theorem shiftOperand_of (src : Byte) (vx : s.params.shiftSrc = .vx → src = s.getV x)
    (vy : s.params.shiftSrc = .vy → src = s.getV y) : s.shiftOperand x y = src := by
  rw [State.shiftOperand]
  cases source : s.params.shiftSrc with
  | vx => exact (vx source).symm
  | vy => exact (vy source).symm

end Sys2Proof.Machine

open Sys2Proof Sys2Proof.Machine

/-- Settles O27: each writes one result, whose bits are those of the word operation. -/
theorem bitwiseOperations : Obligations.BitwiseOperations := by
  intro s x y
  refine ⟨?or, ?and, ?xor⟩
  case or =>
    obtain ⟨t, runs, result, pc, kept⟩ := exec_of_writeResult (exec_orVxVy x y s)
    exact ⟨t, runs, fun k _ => by rw [result, BitVec.getLsbD_or], pc, kept⟩
  case and =>
    obtain ⟨t, runs, result, pc, kept⟩ := exec_of_writeResult (exec_andVxVy x y s)
    exact ⟨t, runs, fun k _ => by rw [result, BitVec.getLsbD_and], pc, kept⟩
  case xor =>
    obtain ⟨t, runs, result, pc, kept⟩ := exec_of_writeResult (exec_xorVxVy x y s)
    exact ⟨t, runs, fun k _ => by rw [result, BitVec.getLsbD_xor], pc, kept⟩

/-- Settles O28: the byte sum, and the carry written after it. -/
theorem addSetsVFToTheCarry : Obligations.AddSetsVFToTheCarry := by
  intro s x y
  obtain ⟨t, runs, sum, flag, pc, kept⟩ := exec_of_writeResultFlag (exec_addVxVy x y s)
  exact ⟨t, runs, fun other => by rw [sum other, BitVec.toNat_add], flag.trans (flagByte_decide _), pc, kept⟩

/-- Settles O29: both are one subtraction, with the operands exchanged. -/
theorem subtractionsSetVFToNotBorrow : Obligations.SubtractionsSetVFToNotBorrow := by
  intro s x y
  constructor
  · obtain ⟨t, runs, difference, flag, pc, kept⟩ := exec_of_writeResultFlag (exec_sub x y s)
    exact ⟨t, runs, fun other => by rw [difference other, toNat_byte_sub], flag.trans (flagByte_decide _), pc, kept⟩
  · obtain ⟨t, runs, difference, flag, pc, kept⟩ := exec_of_writeResultFlag (exec_subn x y s)
    exact ⟨t, runs, fun other => by rw [difference other, toNat_byte_sub], flag.trans (flagByte_decide _), pc, kept⟩

/-- Settles O30: for either `SHIFT_SRC` the operand is `src`, and the bit shifted out is its lowest or highest. -/
theorem shiftsSetVFToTheBitShiftedOut : Obligations.ShiftsSetVFToTheBitShiftedOut := by
  intro s x y src vx vy
  have operand := shiftOperand_of src vx vy
  constructor
  · obtain ⟨t, runs, result, flag, pc, kept⟩ := exec_of_writeResultFlag (exec_shr x y s)
    rw [operand] at result flag
    have half (other : x ≠ 0xF#4) : (t.getV x).toNat = src.toNat / 2 := by
      rw [result other, BitVec.toNat_ushiftRight, Nat.shiftRight_eq_div_pow]
    exact ⟨t, runs, half, by rw [flag, toNat_shiftedOutRight], pc, kept⟩
  · obtain ⟨t, runs, result, flag, pc, kept⟩ := exec_of_writeResultFlag (exec_shl x y s)
    rw [operand] at result flag
    have double (other : x ≠ 0xF#4) : (t.getV x).toNat = src.toNat * 2 % 256 := by
      rw [result other, BitVec.toNat_shiftLeft, Nat.shiftLeft_eq]
    exact ⟨t, runs, double, by rw [flag, toNat_shiftedOutLeft], pc, kept⟩

/-- Settles O31: one result, the conjunction with `kk`. -/
theorem randomByteIsMasked : Obligations.RandomByteIsMasked := by
  intro s x kk
  obtain ⟨t, runs, result, pc, kept⟩ := exec_of_writeResult (exec_rnd x kk s)
  have masked (k : Nat) (_ : k < 8) (clear : kk.getLsbD k = false) : (t.getV x).getLsbD k = false := by
    rw [result, BitVec.getLsbD_and, clear, Bool.and_false]
  exact ⟨t, runs, result, masked, pc, kept⟩

namespace Sys2Proof.Machine

/-! ## The old VF -/

theorem State.setV_overwritten (s : State) (r : Reg) (b c : Byte) : (s.setV r b).setV r c = s.setV r c := by
  simp [State.setV]

theorem State.setV_comm (s : State) {r r' : Reg} (b c : Byte) (ne : r ≠ r') :
    (s.setV r b).setV r' c = (s.setV r' c).setV r b := by
  have indices : r.toNat ≠ r'.toNat := fun e => ne (BitVec.eq_of_toNat_eq e)
  simp only [State.setV, Vector.set_comm _ _ indices]

/-- A result and its flag written over any VF. -/
theorem writeResultFlag_setV_vF (s : State) (b : Byte) (other : x ≠ vF) :
    writeResultFlag x result flag (s.setV vF b) = writeResultFlag x result flag s := by
  have written : ((s.setV vF b).setV x result).setV vF (flagByte flag) = (s.setV x result).setV vF (flagByte flag) := by
    rw [State.setV_comm s b result other.symm, State.setV_overwritten]
  rw [writeResultFlag, written, writeResultFlag]

theorem shiftOperand_setV_vF (s : State) (b : Byte) (hx : x ≠ vF) (hy : y ≠ vF) :
    (s.setV vF b).shiftOperand x y = s.shiftOperand x y := by
  rw [State.shiftOperand, State.shiftOperand, State.getV_setV_other s b hx, State.getV_setV_other s b hy, State.setV_params]

theorem drawSprite_setV_vF (s : State) (b : Byte) (n : Nibble) (hx : x ≠ vF) (hy : y ≠ vF) :
    (s.setV vF b).drawSprite x y n = s.drawSprite x y n := by
  rw [State.drawSprite, State.getV_setV_other s b hx, State.getV_setV_other s b hy]
  rfl

end Sys2Proof.Machine

/-- Settles O32: the operands are read from the other registers, and the flag overwrites what VF held. -/
theorem flagsDoNotDependOnTheOldVF : Obligations.FlagsDoNotDependOnTheOldVF := by
  intro s x y n b hx hy
  have vx : (s.setV vF b).getV x = s.getV x := s.getV_setV_other b hx
  have vy : (s.setV vF b).getV y = s.getV y := s.getV_setV_other b hy
  have src := shiftOperand_setV_vF s b hx hy
  refine ⟨?add, ?sub, ?shr, ?subn, ?shl, ?drw⟩
  case add => rw [exec_addVxVy, vx, vy, writeResultFlag_setV_vF s b hx, exec_addVxVy]
  case sub => rw [exec_sub, vx, vy, writeResultFlag_setV_vF s b hx, exec_sub]
  case shr => rw [exec_shr, src, writeResultFlag_setV_vF s b hx, exec_shr]
  case subn => rw [exec_subn, vx, vy, writeResultFlag_setV_vF s b hx, exec_subn]
  case shl => rw [exec_shl, src, writeResultFlag_setV_vF s b hx, exec_shl]
  case drw =>
    intro fits
    have inRange : rangeFails s.i.toNat n.toNat = false := (rangeFails_false_iff ..).mpr (.inr fits)
    have shown (f : Framebuffer) (c : Byte) : ((s.setV vF b).showFrame f).setV vF c = (s.showFrame f).setV vF c :=
      State.setV_overwritten (s.showFrame f) vF b c
    rw [exec_drw_of_inRange inRange, exec_drw_of_inRange (s := s.setV vF b) inRange, drawSprite_setV_vF s b n hx hy, shown]

end

section
/-! The index register, memory transfers, timers and the key wait (44_index_memory.md, 46_timers_input.md): what is stored and loaded,
and the fault of the range check (20_memory.md R69). -/

namespace Sys2Proof.Machine

variable {s t : State} {x : Reg}

/-- The address R69 records is the model's lowest invalid address. -/
theorem eq_lowestInvalid {i addr : Word} (h : addr.toNat = max i.toNat 0x1000) : addr = lowestInvalid i.toNat :=
  BitVec.eq_of_toNat_eq (h.trans (lowestInvalid_toNat i).symm)

/-- An instruction on the failing side of its range check. -/
theorem faults_of_outside {i : Instr} {addr : Word} (h : addr.toNat = max s.i.toNat 0x1000)
    (raises : exec i s = .next (s.raise .memoryRange (encode i) (lowestInvalid s.i.toNat))) :
    ∃ t, exec i s = .next t ∧ Faults .memoryRange (encode i) addr s t := by
  rw [eq_lowestInvalid h]
  exact ⟨_, raises, State.raise_faults ..⟩

theorem inRange_of_last {first count : Nat} (h : first + count < 0x1000) : rangeFails first (count + 1) = false :=
  (rangeFails_false_iff ..).mpr (.inr (by omega))

theorem outside_of_last {first count : Nat} (h : 0x1000 ≤ first + count) : rangeFails first (count + 1) = true :=
  (rangeFails_iff ..).mpr ⟨Nat.succ_pos _, by omega⟩

/-! ## The bytes stored -/

/-- R193, R194: the byte at offset `k` after a store at `I` and the advance. -/
theorem readByte_stored (s : State) (bs : List Byte) (k : Nat) (inside : k < bs.length) :
    (s.storeBytes s.i.toNat bs).advance.readByte (s.i.toNat + k) = bs[k] :=
  s.readByte_storeBytes_inside s.i.toNat bs k inside

theorem readByte_stored_register (s : State) (x r : Reg) (le : r.toNat ≤ x.toNat) :
    (s.storeBytes s.i.toNat (s.regsUpTo x)).advance.readByte (s.i.toNat + r.toNat) = s.getV r := by
  rw [readByte_stored s _ r.toNat (by rw [State.regsUpTo_length]; omega), State.regsUpTo_get s x r le]

/-- A digit is below 256, so the byte stored for it is the digit. -/
theorem toNat_digit {d : Nat} (small : d < 256) : (BitVec.ofNat 8 d).toNat = d :=
  (BitVec.toNat_ofNat ..).trans (Nat.mod_eq_of_lt small)

theorem getV_loaded (s : State) (x r : Reg) (le : r.toNat ≤ x.toNat) :
    (s.setAllV (s.loadRegs s.i.toNat (x.toNat + 1) s.v)).advance.getV r = s.readByte (s.i.toNat + r.toNat) :=
  (State.loadRegs_get s _ _ _ r.toNat r.isLt).trans (if_pos (by omega))

end Sys2Proof.Machine

open Sys2Proof Sys2Proof.Machine

/-- Settles O34: the first sum wraps as 16-bit sums do, and the product of a byte and 5 does not. -/
theorem indexArithmetic : Obligations.IndexArithmetic := by
  intro s x
  have kept (w : Word) : Keeps { index := true } s (s.setI w).advance := ((Keeps.refl _ s).setI rfl w).setPc _
  constructor
  · have sum : (s.i + byteWord (s.getV x)).toNat = (s.i.toNat + (s.getV x).toNat) % 65536 := by
      rw [BitVec.toNat_add, toNat_byteWord]
    exact ⟨_, exec_addIVx x s, sum, rfl, kept _⟩
  · have product : (byteWord (s.getV x) * 5).toNat = (s.getV x).toNat * 5 := by
      rw [BitVec.toNat_mul, toNat_byteWord]
      exact Nat.mod_eq_of_lt (show (s.getV x).toNat * 5 < 65536 by omega)
    exact ⟨_, exec_ldFVx x s, product, rfl, kept _⟩

/-- Settles O35: the two clauses are the two sides of the range check; each digit is the byte at its offset. -/
theorem bcdStoresThreeDigits : Obligations.BcdStoresThreeDigits := by
  intro s x
  constructor
  · intro fits
    have lt := (s.getV x).isLt
    have byte (k : Nat) (inside : k < 3) := congrArg BitVec.toNat (readByte_stored s (bcdDigits (s.getV x)) k inside)
    have hundreds := (byte 0 (by decide)).trans (toNat_digit (show (s.getV x).toNat / 100 < 256 by omega))
    have tens := (byte 1 (by decide)).trans (toNat_digit (show (s.getV x).toNat / 10 % 10 < 256 by omega))
    have ones := (byte 2 (by decide)).trans (toNat_digit (show (s.getV x).toNat % 10 < 256 by omega))
    exact ⟨_, exec_ldBVx_of_inRange (inRange_of_last fits), hundreds, tens, ones, rfl, keeps_store s _ (bcdDigits_length _)⟩
  · intro past addr recorded
    exact faults_of_outside recorded (exec_ldBVx_of_outside (outside_of_last past))

/-- Settles O36: the two clauses are the two sides of the range check. -/
theorem storeRegistersFromIndex : Obligations.StoreRegistersFromIndex := by
  intro s x
  constructor
  · intro fits
    exact ⟨_, exec_ldMemVx_of_inRange (inRange_of_last fits), readByte_stored_register s x, rfl,
      keeps_store s _ (s.regsUpTo_length x)⟩
  · intro past addr recorded
    exact faults_of_outside recorded (exec_ldMemVx_of_outside (outside_of_last past))

/-- Settles O37: the two clauses are the two sides of the range check. -/
theorem loadRegistersFromIndex : Obligations.LoadRegistersFromIndex := by
  intro s x
  constructor
  · intro fits
    exact ⟨_, exec_ldVxMem_of_inRange (inRange_of_last fits), getV_loaded s x, rfl, keeps_load s x⟩
  · intro past addr recorded
    exact faults_of_outside recorded (exec_ldVxMem_of_outside (outside_of_last past))

/-- Settles O38: each register is loaded from the byte it was stored to. -/
theorem storeThenLoadRestoresTheRegisters : Obligations.StoreThenLoadRestoresTheRegisters := by
  intro s t u w x fits stored sameIndex sameBytes loaded r le
  rw [exec_ldMemVx_of_inRange (inRange_of_last fits)] at stored
  rw [exec_ldVxMem_of_inRange (inRange_of_last (by rwa [sameIndex]))] at loaded
  cases stored
  cases loaded
  calc
    _ = u.readByte (u.i.toNat + r.toNat) := getV_loaded u x r le
    _ = _ := by rw [sameIndex, sameBytes _ le]
    _ = s.getV r := readByte_stored_register s x r le

/-- Settles O39: the two bytes of the next fetch are the two registers stored there. -/
theorem storedWordIsTheNextFetched : Obligations.StoredWordIsTheNextFetched := by
  intro s t x k k' fits successor last address stored
  rw [exec_ldMemVx_of_inRange (inRange_of_last fits)] at stored
  cases stored
  have high := readByte_stored_register s x k (by omega)
  have low := readByte_stored_register s x k' last
  rw [successor, ← Nat.add_assoc] at low
  rw [address] at high low
  exact congrArg₂ wordOfBytes high low

/-- Settles O43: one write each, and `sound_on` is the test of `st`. -/
theorem timerInstructions : Obligations.TimerInstructions := by
  intro s x
  refine ⟨?ldVxDt, ?ldDtVx, ?ldStVx⟩
  case ldVxDt => exact exec_of_writeResult (exec_ldVxDt x s)
  case ldDtVx => exact ⟨_, exec_ldDtVx x s, rfl, rfl, ((Keeps.refl _ s).setDt rfl _).setPc _⟩
  case ldStVx => exact ⟨_, exec_ldStVx x s, rfl, bne_iff_ne, rfl, ((Keeps.refl _ s).setSt rfl _).setPc _⟩

/-- Settles O44: the entry into the wait is all that `Fx0A` does. -/
theorem keyWaitIsEntered : Obligations.KeyWaitIsEntered := fun s x =>
  ⟨_, exec_ldVxK x s, rfl, rfl, rfl, (Keeps.refl _ s).enterWait rfl rfl x⟩

end

section
/-! `Dxyn` (45_display.md R210 to R216): the framebuffer and the collision bit of a draw, by pixels. -/

namespace Sys2Proof.Machine

variable {s t : State} {x y : Reg} {n : Nibble}

/-- A grid is its pixels (R30). -/
theorem framebuffer_ext {f g : Framebuffer} (pixels : ∀ qx qy, framePixel f qx qy = framePixel g qx qy) : f = g := by
  refine Vector.ext fun row inside => BitVec.eq_of_getLsbD_eq fun column lt => ?_
  exact pixels ⟨column, lt⟩ ⟨row, inside⟩

theorem rows_le (n : Nibble) : n.toNat ≤ 32 := by omega

/-- R213, R215: a covered pixel is flipped. -/
theorem drawSprite_flips {qx : Fin 64} {qy : Fin 32} (covered : s.covers x y n qx qy) :
    framePixel (s.drawSprite x y n).1 qx qy = !s.pixel qx qy :=
  (framePixel_drawRows _ _ _ n.toNat _ (rows_le n) qx qy).1 covered

theorem drawSprite_keeps {qx : Fin 64} {qy : Fin 32} (uncovered : ¬ s.covers x y n qx qy) :
    framePixel (s.drawSprite x y n).1 qx qy = s.pixel qx qy :=
  (framePixel_drawRows _ _ _ n.toNat _ (rows_le n) qx qy).2 uncovered

/-- R214. -/
theorem drawSprite_collides : (s.drawSprite x y n).2 = true ↔ ∃ qx qy, s.covers x y n qx qy ∧ s.pixel qx qy = true := by
  refine (collision_drawRows _ _ _ n.toNat _ (rows_le n)).trans ?_
  simp only [Bool.false_eq_true, false_or]
  rfl

theorem inRange_of_draw (fits : n = 0 ∨ s.i.toNat + n.toNat ≤ 0x1000) : rangeFails s.i.toNat n.toNat = false :=
  (rangeFails_false_iff ..).mpr (fits.imp_left fun zero => by rw [zero]; rfl)

theorem flagByte_cases (b : Bool) : flagByte b = 0 ∨ flagByte b = 1 := by cases b <;> simp [flagByte]

/-- VF is written last, so it holds the flag (R22). -/
theorem getV_vF_drawn (s : State) (f : Framebuffer) (b : Bool) :
    ((s.showFrame f).setV vF (flagByte b)).advance.getV 0xF#4 = flagByte b := State.getV_setV_same ..

/-- What a draw covers depends on `I`, `Vx`, `Vy` and memory alone. -/
theorem covers_congr {t' : State} (index : t'.i = s.i) (hx : t'.getV x = s.getV x) (hy : t'.getV y = s.getV y)
    (bytes : ∀ a, t'.readByte a = s.readByte a) (qx : Fin 64) (qy : Fin 32) :
    t'.covers x y n qx qy ↔ s.covers x y n qx qy := by
  rw [State.covers, State.covers, index, hx, hy]
  simp only [bytes]

end Sys2Proof.Machine

open Sys2Proof Sys2Proof.Machine

/-- Settles O41: the two clauses are the two sides of the range check; the pixels and the collision are those of `drawSprite`. -/
theorem drawFlipsTheSpriteAndReportsCollision : Obligations.DrawFlipsTheSpriteAndReportsCollision := by
  intro s x y n
  constructor
  · intro fits
    refine ⟨_, exec_drw_of_inRange (inRange_of_draw fits), fun _ _ => drawSprite_flips, fun _ _ => drawSprite_keeps, ?_, ?_, rfl, rfl,
      keeps_draw s _ _⟩
    · rw [getV_vF_drawn]; exact flagByte_cases _
    · rw [getV_vF_drawn, flagByte_eq_one]; exact drawSprite_collides
  · intro nonzero past addr recorded
    have positive : 0 < n.toNat := Nat.pos_of_ne_zero fun zero => nonzero (BitVec.eq_of_toNat_eq zero)
    have outside : rangeFails s.i.toNat n.toNat = true := (rangeFails_iff ..).mpr ⟨positive, by omega⟩
    exact faults_of_outside recorded (exec_drw_of_outside outside)

/-- Settles O42: the second draw covers the pixels of the first, each of which the first flipped. -/
theorem drawingTwiceRestoresTheFramebuffer : Obligations.DrawingTwiceRestoresTheFramebuffer := by
  intro s t t' u x y n fits first sameFb index hx hy bytes second
  have same := covers_congr (n := n) index hx hy bytes
  rw [exec_drw_of_inRange (inRange_of_draw fits)] at first
  rw [exec_drw_of_inRange (inRange_of_draw (by rwa [index]))] at second
  cases first
  cases second
  have drawn (qx : Fin 64) (qy : Fin 32) : t'.pixel qx qy = framePixel (s.drawSprite x y n).1 qx qy := by
    rw [State.pixel, sameFb]; rfl
  constructor
  · refine framebuffer_ext fun qx qy => ?_
    show framePixel (t'.drawSprite x y n).1 qx qy = s.pixel qx qy
    by_cases covered : s.covers x y n qx qy
    · rw [drawSprite_flips ((same qx qy).mpr covered), drawn, drawSprite_flips covered, Bool.not_not]
    · rw [drawSprite_keeps (mt (same qx qy).mp covered), drawn, drawSprite_keeps covered]
  · have before (qx : Fin 64) (qy : Fin 32) :
        t'.covers x y n qx qy ∧ t'.pixel qx qy = true ↔ s.covers x y n qx qy ∧ s.pixel qx qy = false := by
      rw [same]
      refine and_congr_right fun covered => ?_
      rw [drawn, drawSprite_flips covered, Bool.not_eq_true']
    rw [getV_vF_drawn, flagByte_eq_one, drawSprite_collides]
    simp only [before]

end
